-- ==== Sys2Proof/Word.lean ====
section
/-! DEFINITION. The words of the block: bytes, 16-bit and 32-bit unsigned values, byte buffers, and the two
byte-sequence values that stand in registers and records (00_scope.md R13 to R15, 30_encoding.md R304). -/

namespace Sys2Proof

/-- A byte: 8 bits, unsigned (R15). -/
abbrev Byte := BitVec 8

/-- A 16-bit unsigned value: a port, a checksum, an EtherType, a window (R304). -/
abbrev U16 := BitVec 16

/-- A 32-bit unsigned value: a sequence or acknowledgment number. Its `+` is `+32` of R19. -/
abbrev U32 := BitVec 32

/-- A byte buffer: a finite sequence of bytes, index 0 first (R15, R201). -/
abbrev Buffer := List Byte

/-- An IPv4 address: 4 bytes in index order, with no integer interpretation (R202, R304). -/
structure IPv4Addr where
  b0 : Byte
  b1 : Byte
  b2 : Byte
  b3 : Byte
  deriving DecidableEq, Repr, Inhabited

/-- A MAC address: 6 bytes in index order (R20, R310). -/
structure MacAddr where
  b0 : Byte
  b1 : Byte
  b2 : Byte
  b3 : Byte
  b4 : Byte
  b5 : Byte
  deriving DecidableEq, Repr, Inhabited

end Sys2Proof
end

