-- ==== Sys2Proof/Syntax.lean ====
section
/-! DEFINITION. The records the commands take and return (30_encoding.md R310, R311, R313), the command transaction
(R300) and `Instr`, one constructor per row of spec/opcode_table.json (R301, R302). -/

namespace Sys2Proof

/-- EthernetFrame record (R310). -/
structure EthernetFrame where
  dst : MacAddr
  src : MacAddr
  etherType : U16
  deriving DecidableEq, Repr

/-- IPv4Header record (R311). -/
structure IPv4Header where
  version : BitVec 4
  ihl : BitVec 4
  tos : Byte
  totalLen : U16
  id : U16
  flags : BitVec 3
  fragOff : BitVec 13
  ttl : Byte
  protocol : Byte
  checksum : U16
  src : IPv4Addr
  dst : IPv4Addr
  deriving DecidableEq, Repr

/-- TCPSegment record (R313). `flags` is the 9-bit flag value of R320. -/
structure TCPSegment where
  srcPort : U16
  dstPort : U16
  seqNum : U32
  ackNum : U32
  dataOffset : BitVec 4
  flags : BitVec 9
  window : U16
  deriving DecidableEq, Repr

/-- A typed operand of a command transaction (R300, R301, R304). -/
inductive Operand where
  | bytes (buf : Buffer)
  | u16 (v : U16)
  | ipv4Addr (a : IPv4Addr)
  | ethernetFrame (f : EthernetFrame)
  | ipv4Header (h : IPv4Header)
  | tcpSegment (seg : TCPSegment)
  deriving DecidableEq, Repr

/-- One command transaction as the host issues it: an 8-bit code and a list of operands (R300). -/
structure Command where
  code : Byte
  operands : List Operand
  deriving DecidableEq, Repr

/-- The commands that have a code of their own, the rows of R301's table. -/
inductive Op where
  | csum | ethDec | ethEnc | ip4Dec | ip4Enc | tcpDec | tcpEnc | tcpCsum | tcpSeal
  | onSyn | onAck | dispatch | rxFrame | connRead
  deriving DecidableEq, Repr

/-- A decoded command: one constructor per row of spec/opcode_table.json, operands in R301's order. -/
inductive Instr where
  /-- CSUM, code 0x01. -/
  | csum (buf : Buffer)
  /-- ETH_DEC, code 0x02. -/
  | ethDec (buf : Buffer)
  /-- ETH_ENC, code 0x03. -/
  | ethEnc (f : EthernetFrame)
  /-- IP4_DEC, code 0x04. -/
  | ip4Dec (buf : Buffer)
  /-- IP4_ENC, code 0x05. -/
  | ip4Enc (h : IPv4Header)
  /-- TCP_DEC, code 0x06. -/
  | tcpDec (buf : Buffer)
  /-- TCP_ENC, code 0x07. -/
  | tcpEnc (seg : TCPSegment)
  /-- TCP_CSUM, code 0x08. -/
  | tcpCsum (src dst : IPv4Addr) (seg : Buffer)
  /-- TCP_SEAL, code 0x09. -/
  | tcpSeal (src dst : IPv4Addr) (seg : Buffer)
  /-- ON_SYN, code 0x10. -/
  | onSyn (seg : TCPSegment) (rip : IPv4Addr) (rport : U16)
  /-- ON_ACK, code 0x11. -/
  | onAck (seg : TCPSegment)
  /-- DISPATCH, code 0x12. -/
  | dispatch (seg : TCPSegment) (sip : IPv4Addr)
  /-- RX_FRAME, code 0x13. -/
  | rxFrame (frame : Buffer)
  /-- CONN_READ, code 0x20. -/
  | connRead
  /-- RESERVED, every other code; its operands are ignored (R751). -/
  | reserved (code : Byte)
  deriving DecidableEq, Repr

end Sys2Proof
end

