-- ==== Sys2Proof/WellFormed.lean ====
section
/-! DEFINITION. Which instructions are well formed. The records' types rule out out-of-range fields (42_ethernet.md
R451), so the one check left is that a RESERVED instruction carries a reserved code (30_encoding.md R302). An
operand buffer of any length is well formed: one over P_MAX_BUF is refused when it runs (R210, R807). -/

namespace Sys2Proof

/-- The reserved codes of R302: 0x00, 0x0A to 0x0F, 0x14 to 0x1F, and 0x21 to 0xFF. -/
def isReservedCode (code : Byte) : Bool :=
  let c := code.toNat
  c == 0x00 || (0x0A ≤ c && c ≤ 0x0F) || (0x14 ≤ c && c ≤ 0x1F) || (0x21 ≤ c && c ≤ 0xFF)

/-- Well-formedness of a decoded command. -/
def Instr.wf : Instr → Bool
  | .csum _ => true
  | .ethDec _ => true
  | .ethEnc _ => true
  | .ip4Dec _ => true
  | .ip4Enc _ => true
  | .tcpDec _ => true
  | .tcpEnc _ => true
  | .tcpCsum _ _ _ => true
  | .tcpSeal _ _ _ => true
  | .onSyn _ _ _ => true
  | .onAck _ => true
  | .dispatch _ _ => true
  | .rxFrame _ => true
  | .connRead => true
  | .reserved code => isReservedCode code

end Sys2Proof
end

