-- ==== Sys2Proof/Decode.lean ====
section
/-! DEFINITION. From a command transaction to an instruction and back (30_encoding.md R300 to R302, opcode_table.json).
`decode` is total on every 8-bit code and every operand list and rejects by name; `encode` is its inverse on
well-formed instructions. -/

namespace Sys2Proof

/-- The command codes of R301. -/
def opTable : List (Byte × Op) :=
  [ (0x01, .csum), (0x02, .ethDec), (0x03, .ethEnc), (0x04, .ip4Dec), (0x05, .ip4Enc),
    (0x06, .tcpDec), (0x07, .tcpEnc), (0x08, .tcpCsum), (0x09, .tcpSeal),
    (0x10, .onSyn), (0x11, .onAck), (0x12, .dispatch), (0x13, .rxFrame), (0x20, .connRead) ]

/-- The command a code selects; `none` is a reserved code (R300, R302). -/
def opOfCode (code : Byte) : Option Op :=
  (opTable.find? (fun row => row.1 == code)).map (fun row => row.2)

/-- Why a transaction is rejected: its operands are not those R301 fixes for this command (assumption log 1). -/
inductive DecodeError where
  | operandTypes (op : Op)
  deriving DecidableEq, Repr

/-- The operand list of a known command, read by the types R301 fixes. -/
def decodeOperands : Op → List Operand → Except DecodeError Instr
  | .csum, [.bytes buf] => .ok (.csum buf)
  | .ethDec, [.bytes buf] => .ok (.ethDec buf)
  | .ethEnc, [.ethernetFrame f] => .ok (.ethEnc f)
  | .ip4Dec, [.bytes buf] => .ok (.ip4Dec buf)
  | .ip4Enc, [.ipv4Header h] => .ok (.ip4Enc h)
  | .tcpDec, [.bytes buf] => .ok (.tcpDec buf)
  | .tcpEnc, [.tcpSegment seg] => .ok (.tcpEnc seg)
  | .tcpCsum, [.ipv4Addr src, .ipv4Addr dst, .bytes seg] => .ok (.tcpCsum src dst seg)
  | .tcpSeal, [.ipv4Addr src, .ipv4Addr dst, .bytes seg] => .ok (.tcpSeal src dst seg)
  | .onSyn, [.tcpSegment seg, .ipv4Addr rip, .u16 rport] => .ok (.onSyn seg rip rport)
  | .onAck, [.tcpSegment seg] => .ok (.onAck seg)
  | .dispatch, [.tcpSegment seg, .ipv4Addr sip] => .ok (.dispatch seg sip)
  | .rxFrame, [.bytes frame] => .ok (.rxFrame frame)
  | .connRead, [] => .ok .connRead
  | op, _ => .error (.operandTypes op)

/-- Decode a transaction. A reserved code decodes whatever its operands are: they are ignored (R751). -/
def decode (c : Command) : Except DecodeError Instr :=
  match opOfCode c.code with
  | none => .ok (.reserved c.code)
  | some op => decodeOperands op c.operands

/-- The code of a command (R301). -/
def codeOfOp : Op → Byte
  | .csum => 0x01
  | .ethDec => 0x02
  | .ethEnc => 0x03
  | .ip4Dec => 0x04
  | .ip4Enc => 0x05
  | .tcpDec => 0x06
  | .tcpEnc => 0x07
  | .tcpCsum => 0x08
  | .tcpSeal => 0x09
  | .onSyn => 0x10
  | .onAck => 0x11
  | .dispatch => 0x12
  | .rxFrame => 0x13
  | .connRead => 0x20

/-- The transaction of an instruction (R301). A reserved code is issued with no operands. -/
def encode : Instr → Command
  | .csum buf => ⟨codeOfOp .csum, [.bytes buf]⟩
  | .ethDec buf => ⟨codeOfOp .ethDec, [.bytes buf]⟩
  | .ethEnc f => ⟨codeOfOp .ethEnc, [.ethernetFrame f]⟩
  | .ip4Dec buf => ⟨codeOfOp .ip4Dec, [.bytes buf]⟩
  | .ip4Enc h => ⟨codeOfOp .ip4Enc, [.ipv4Header h]⟩
  | .tcpDec buf => ⟨codeOfOp .tcpDec, [.bytes buf]⟩
  | .tcpEnc seg => ⟨codeOfOp .tcpEnc, [.tcpSegment seg]⟩
  | .tcpCsum src dst seg => ⟨codeOfOp .tcpCsum, [.ipv4Addr src, .ipv4Addr dst, .bytes seg]⟩
  | .tcpSeal src dst seg => ⟨codeOfOp .tcpSeal, [.ipv4Addr src, .ipv4Addr dst, .bytes seg]⟩
  | .onSyn seg rip rport => ⟨codeOfOp .onSyn, [.tcpSegment seg, .ipv4Addr rip, .u16 rport]⟩
  | .onAck seg => ⟨codeOfOp .onAck, [.tcpSegment seg]⟩
  | .dispatch seg sip => ⟨codeOfOp .dispatch, [.tcpSegment seg, .ipv4Addr sip]⟩
  | .rxFrame frame => ⟨codeOfOp .rxFrame, [.bytes frame]⟩
  | .connRead => ⟨codeOfOp .connRead, []⟩
  | .reserved code => ⟨code, []⟩

/-- The all-zero IPv4 address. -/
def zeroAddr : IPv4Addr := ⟨0, 0, 0, 0⟩

/-- The all-zero segment record. -/
def zeroSegment : TCPSegment := ⟨0, 0, 0, 0, 0, 0, 0⟩

/-- Operands of zeros for a command: empty buffers, zero scalars, records of zero fields. The opcode table gives the
operands no bits, and the typed operands have no byte layout in the spec (assumption log 7). -/
def zeroOperands : Op → List Operand
  | .csum => [.bytes []]
  | .ethDec => [.bytes []]
  | .ethEnc => [.ethernetFrame ⟨⟨0, 0, 0, 0, 0, 0⟩, ⟨0, 0, 0, 0, 0, 0⟩, 0⟩]
  | .ip4Dec => [.bytes []]
  | .ip4Enc => [.ipv4Header ⟨0, 0, 0, 0, 0, 0, 0, 0, 0, 0, zeroAddr, zeroAddr⟩]
  | .tcpDec => [.bytes []]
  | .tcpEnc => [.tcpSegment zeroSegment]
  | .tcpCsum => [.ipv4Addr zeroAddr, .ipv4Addr zeroAddr, .bytes []]
  | .tcpSeal => [.ipv4Addr zeroAddr, .ipv4Addr zeroAddr, .bytes []]
  | .onSyn => [.tcpSegment zeroSegment, .ipv4Addr zeroAddr, .u16 0]
  | .onAck => [.tcpSegment zeroSegment]
  | .dispatch => [.tcpSegment zeroSegment, .ipv4Addr zeroAddr]
  | .rxFrame => [.bytes []]
  | .connRead => []

/-- The transaction behind an opcode-table word of `nbits` bits: the code is its low byte, the operands are zeros. -/
def tableCommand (nbits w : Nat) : Command :=
  let code : Byte := BitVec.ofNat 8 (w % 2 ^ nbits)
  match opOfCode code with
  | none => ⟨code, []⟩
  | some op => ⟨code, zeroOperands op⟩

/-- The instruction the decoder reads from an opcode-table word. A code has 8 bits (R300): a larger word is none. -/
def decodeTableWord (nbits w : Nat) : Option Instr :=
  if w < 2 ^ 8 then
    match decode (tableCommand nbits w) with
    | .ok i => some i
    | .error _ => none
  else none

end Sys2Proof
end

