-- ==== Sys2Proof/Config.lean ====
section
/-! DEFINITION. The constants the source settles (00_scope.md R11, 30_encoding.md R323), the parameters it leaves
open (R12) as one record, and the opaque constants behind the values that nothing fixes. -/

namespace Sys2Proof

namespace Config

/-- ETH_HDR_LEN (R11). -/
abbrev ethHdrLen : Nat := 14

/-- IP4_HDR_LEN, encoded and minimum decoded (R11). -/
abbrev ip4HdrLen : Nat := 20

/-- TCP_HDR_LEN, encoded and minimum decoded (R11). -/
abbrev tcpHdrLen : Nat := 20

/-- PSEUDO_HDR_LEN (R11). -/
abbrev pseudoHdrLen : Nat := 12

/-- The longest segment whose length fits the pseudo-header's 16-bit field (R210, R601). -/
abbrev maxSegment : Nat := 65535

/-- PROTO_TCP (R11, R323). -/
abbrev protoTcp : Byte := 6

/-- Protocol number of ICMP, named in the source and used by no rule (R323). -/
abbrev protoIcmp : Byte := 1

/-- Protocol number of UDP, named in the source and used by no rule (R323). -/
abbrev protoUdp : Byte := 17

/-- EtherType of IPv4 (R323, R453). -/
abbrev etherTypeIPv4 : U16 := 0x0800

/-- TCP data offset of produced segments, in 32-bit words (R11, R554). -/
abbrev producedDataOffset : BitVec 4 := 5

end Config

/-- P_LINK_TYPE: the link framing RX_FRAME parses and builds. Only ETHERNET is admitted; `other` stands for
every other value the host may configure (R12, R706). -/
inductive LinkType where
  | ethernet
  | other (code : Nat)
  deriving DecidableEq, Repr

/-- The open parameters of R12, which a model takes as an argument. State carries one record of them; only a reset
changes it, which samples P_LOCAL_IP and P_LOCAL_PORT (70_reset_and_hazards.md R900, assumption log 4). The oracle ENTROPY is not here: see `Config.freeEntropy`. -/
structure Params where
  /-- P_LOCAL_IP as last sampled: value of conn.localIP after reset. -/
  localIP : IPv4Addr
  /-- P_LOCAL_PORT as last sampled: value of conn.localPort after reset. -/
  localPort : U16
  /-- P_SYNACK_WINDOW: window field of the SYN+ACK segment. -/
  synAckWindow : U16
  /-- P_TX_TOS: type of service of an outbound IPv4 header. -/
  txTos : Byte
  /-- P_TX_ID: identification of an outbound IPv4 header. -/
  txId : U16
  /-- P_TX_FLAGS: IPv4 flags of an outbound header. -/
  txFlags : BitVec 3
  /-- P_TX_TTL: time to live of an outbound IPv4 header. -/
  txTtl : Byte
  /-- P_LINK_TYPE. -/
  linkType : LinkType
  /-- P_MAX_BUF: the longest admitted operand buffer; `none` is "unbounded". -/
  maxBuf : Option Nat
  deriving DecidableEq, Repr

/-- What R12 asks of the parameters: P_MAX_BUF is a natural number of at least 54, or unbounded. -/
def Params.wf (p : Params) : Bool :=
  match p.maxBuf with
  | none => true
  | some n => decide (54 ≤ n)

namespace Config

/-- The entropy source's answer to draw number `n` where State scripts none: a free value, a 32-bit number or a
failure, under no law (R654; assumption log 6). -/
opaque freeEntropy : Nat → Option U32

/-- P_LOCAL_IP of the machine `State.reset` describes: open in the spec (assumption log 5). -/
opaque localIP : IPv4Addr

/-- P_LOCAL_PORT of the machine `State.reset` describes: open in the spec (assumption log 5). -/
opaque localPort : U16

/-- P_SYNACK_WINDOW of the machine `State.reset` describes: open in the spec (assumption log 5). -/
opaque synAckWindow : U16

/-- P_TX_TOS of the machine `State.reset` describes: open in the spec (assumption log 5). -/
opaque txTos : Byte

/-- P_TX_ID of the machine `State.reset` describes: open in the spec (assumption log 5). -/
opaque txId : U16

/-- P_TX_FLAGS of the machine `State.reset` describes: open in the spec (assumption log 5). -/
opaque txFlags : BitVec 3

/-- P_TX_TTL of the machine `State.reset` describes: open in the spec (assumption log 5). -/
opaque txTtl : Byte

/-- The parameters of the machine `State.reset` describes. DESIGN CHOICE (assumption log 5): the link type is the
one R12 admits, and P_MAX_BUF is "unbounded", one of the values R12 allows; the rest is open. -/
def resetParams : Params where
  localIP := localIP
  localPort := localPort
  synAckWindow := synAckWindow
  txTos := txTos
  txId := txId
  txFlags := txFlags
  txTtl := txTtl
  linkType := .ethernet
  maxBuf := none

end Config

end Sys2Proof
end

