-- ==== Sys2Proof/Machine/State.lean ====
section
/-! DEFINITION. The machine's state as plain data: the Connection record and FATAL (10_state.md R100 to R120), and the
model's own fields around them (the parameters, the host's stream, the answer port, the entropy script); the
reasons a step can stop; reset (70_reset_and_hazards.md R900). -/

namespace Sys2Proof.Machine

/-- The eleven connection states, in the order of R113 (R103, R650). The codes 11 to 15 are never held (R103). -/
inductive ConnState where
  | listen
  | synReceived
  | established
  | finWait1
  | finWait2
  | closeWait
  | closing
  | lastAck
  | closed
  | synSent
  | timeWait
  deriving DecidableEq, Repr

/-- The content of a register that may hold UNWRITTEN, "which is not a value" (R118). -/
inductive Reg (α : Type) where
  | unwritten
  | written (v : α)
  deriving DecidableEq, Repr

/-- The registers that hold UNWRITTEN after reset (R120). -/
inductive RegName where
  | remoteIP
  | remotePort
  | sendSeq
  | recvNext
  | lastAckSent
  deriving DecidableEq, Repr

/-- The Connection record (R103 to R110). -/
structure Connection where
  /-- R103. -/
  state : ConnState
  /-- R104. -/
  localIP : IPv4Addr
  /-- R105. -/
  localPort : U16
  /-- R106. -/
  remoteIP : Reg IPv4Addr
  /-- R107. -/
  remotePort : Reg U16
  /-- R108: the ISN after ON_SYN, ISN +32 1 after a successful ON_ACK (90_conflicts.md C7). -/
  sendSeq : Reg U32
  /-- R109. -/
  recvNext : Reg U32
  /-- R110. -/
  lastAckSent : Reg U32
  deriving DecidableEq, Repr

/-- ConnView, the result of CONN_READ (R316): the 4-bit state code and the registers, with their markers. -/
structure ConnView where
  state : BitVec 4
  localIP : IPv4Addr
  localPort : U16
  remoteIP : Reg IPv4Addr
  remotePort : Reg U16
  sendSeq : Reg U32
  recvNext : Reg U32
  lastAckSent : Reg U32
  deriving DecidableEq, Repr

/-- The status of a command (R330). -/
inductive Status where
  | ok
  | formatError
  | protocolMismatch
  | droppedPort
  | unhandledFlags
  | illegalCommand
  | fatalEntropy
  deriving DecidableEq, Repr

/-- A result value of a command, typed per command code (R300, R301). -/
inductive Value where
  | u16 (v : U16)
  | bytes (buf : Buffer)
  | ethernetFrame (f : EthernetFrame)
  | ipv4Header (h : IPv4Header)
  | tcpSegment (seg : TCPSegment)
  | connView (v : ConnView)
  deriving DecidableEq, Repr

/-- A command's answer: its status, and its result if it has one (R18, R300). -/
structure Response where
  status : Status
  result : Option Value
  deriving DecidableEq, Repr

/-- What the host does at the block's interface: issue a command, or assert reset (R705, R900). A reset comes with the
values P_LOCAL_IP and P_LOCAL_PORT have when it is asserted, the values it samples (R900, R903). -/
inductive HostEvent where
  | command (c : Command)
  | reset (localIP : IPv4Addr) (localPort : U16)
  deriving DecidableEq, Repr

/-- The machine. `conn` and `fatal` are the block's architectural state (R100); the other fields are the model's own:
the spec calls none of them state (R101, R116, R119; assumption log 2 to 6). -/
structure State where
  /-- The Connection record (R100 a). -/
  conn : Connection
  /-- FATAL (R111). -/
  fatal : Bool
  /-- The open parameters of R12: P_LOCAL_IP and P_LOCAL_PORT as the last reset sampled them, the others constant
  (R900). -/
  cfg : Params
  /-- What the host issues next, oldest first (R102, R213). -/
  inputs : List HostEvent
  /-- The answer of the last command, `none` before the first one. No rule reads it (R116). -/
  response : Option Response
  /-- The answers the entropy source is about to give (R654): arbitrary data. -/
  entropy : List (Option U32)
  /-- How many draws were made: past the end of `entropy`, the argument of `Config.freeEntropy`. -/
  draws : Nat
  deriving DecidableEq, Repr

/-- Why the machine stops with a fault. -/
inductive Fault where
  /-- Raised by a rule other than CONN_READ's that needs a register holding UNWRITTEN (R118): ON_ACK in SYN_RECEIVED, on
  its own or through DISPATCH or RX_FRAME, and the reply builder of RX_FRAME. Safe: the spec says such a rule
  "would fault" (10_state.md R118, 93_implementation_defined.md I4), and no reachable state does it (R115). -/
  | unwrittenRead (register : RegName)
  deriving DecidableEq, Repr

/-- Why a command has no step. -/
inductive Refusal where
  /-- Raised by an arm of `exec` whose instruction has no meaning yet. Safe. -/
  | notModelled (mnemonic : String)
  /-- refuse(OVERSIZE) of R807, raised by every command with a byte-buffer operand (R210). Safe: the spec gives no step. -/
  | oversize
  /-- refuse(LINK_TYPE) of R807, raised by RX_FRAME (R706). Safe: the spec gives no step. -/
  | linkType
  /-- Raised by `step` when a transaction's operands are not those R301 fixes for its command and FATAL is 0
  (assumption log 1). Safe: the interface admits no such transaction. -/
  | operandTypes (op : Op)
  deriving DecidableEq, Repr

/-- The Connection record after reset (R120, R900): P_LOCAL_IP and P_LOCAL_PORT are sampled, the rest is UNWRITTEN. -/
def Connection.atReset (p : Params) : Connection where
  state := .listen
  localIP := p.localIP
  localPort := p.localPort
  remoteIP := .unwritten
  remotePort := .unwritten
  sendSeq := .unwritten
  recvNext := .unwritten
  lastAckSent := .unwritten

/-- The machine right after reset under given parameters (R900, R903), with nothing issued, answered or scripted. -/
def State.resetWith (p : Params) : State where
  conn := Connection.atReset p
  fatal := false
  cfg := p
  inputs := []
  response := none
  entropy := []
  draws := 0

/-- The machine right after reset, under the parameters of Config (assumption log 5). -/
def State.reset : State := State.resetWith Config.resetParams

end Sys2Proof.Machine
end

