-- ==== Sys2Proof/Machine/Operands.lean ====
section
/-! DEFINITION. How operand buffers are read and written: the memory primitives (20_memory.md R203 to R205), the
header offsets (R207), the operand size bound (R210), and the numeric codes of states and statuses (R113, R330). -/

namespace Sys2Proof.Machine

/-- `buf[i]` (R15). Past the end R203 leaves it undefined; no rule reads there, every command checks the length
first (R801), and the 0 given here reaches no meaning (DESIGN CHOICE, assumption log 8). -/
def byteAt (buf : Buffer) (i : Nat) : Byte := buf.getD i 0

/-- `MemRead(buf, off, 2)`: the byte at `off` is the high byte (R203, R205). -/
def memRead16 (buf : Buffer) (off : Nat) : U16 := byteAt buf off ++ byteAt buf (off + 1)

/-- `MemRead(buf, off, 4)`: the byte at `off` is the most significant byte (R203, R205). -/
def memRead32 (buf : Buffer) (off : Nat) : U32 := memRead16 buf off ++ memRead16 buf (off + 2)

/-- `MemWrite(buf, off, 1, v)` (R204). Past the end R204 gives no meaning (R16: every use is in range); DESIGN CHOICE
(assumption log 8): the buffer is left as it was. No meaning writes there. -/
def memWrite8 (buf : Buffer) (off : Nat) (v : Byte) : Buffer := buf.set off v

/-- `MemWrite(buf, off, 2, v)` (R204). -/
def memWrite16 (buf : Buffer) (off : Nat) (v : U16) : Buffer :=
  memWrite8 (memWrite8 buf off (v.extractLsb' 8 8)) (off + 1) (v.extractLsb' 0 8)

/-- `MemWrite(buf, off, 4, v)` (R204). -/
def memWrite32 (buf : Buffer) (off : Nat) (v : U32) : Buffer :=
  memWrite16 (memWrite16 buf off (v.extractLsb' 16 16)) (off + 2) (v.extractLsb' 0 16)

/-- The bytes of a 16-bit value in index order (R202). -/
def bytesOf16 (v : U16) : Buffer := [v.extractLsb' 8 8, v.extractLsb' 0 8]

/-- The bytes of an IPv4 address in index order (R202). -/
def addrBytes (a : IPv4Addr) : Buffer := [a.b0, a.b1, a.b2, a.b3]

/-- The bytes of a MAC address in index order (R202). -/
def macBytes (a : MacAddr) : Buffer := [a.b0, a.b1, a.b2, a.b3, a.b4, a.b5]

/-- `Bytes(buf, off, 4)` as an IPv4 address (R16, R204). -/
def addrAt (buf : Buffer) (off : Nat) : IPv4Addr :=
  ⟨byteAt buf off, byteAt buf (off + 1), byteAt buf (off + 2), byteAt buf (off + 3)⟩

/-- `Bytes(buf, off, 6)` as a MAC address (R16, R204). -/
def macAt (buf : Buffer) (off : Nat) : MacAddr :=
  ⟨byteAt buf off, byteAt buf (off + 1), byteAt buf (off + 2), byteAt buf (off + 3), byteAt buf (off + 4),
    byteAt buf (off + 5)⟩

/-- Copies the four bytes of an address into a buffer (R204). -/
def writeAddr (buf : Buffer) (off : Nat) (a : IPv4Addr) : Buffer :=
  memWrite8 (memWrite8 (memWrite8 (memWrite8 buf off a.b0) (off + 1) a.b1) (off + 2) a.b2) (off + 3) a.b3

/-- `zeros(n)` (R15). -/
def zeros (n : Nat) : Buffer := List.replicate n 0

/-- The offset of the TCP header in a frame: 14 + 4*IHL, for every IHL from 0 to 15 (R207, R504). -/
def tcpOffset (h : IPv4Header) : Nat := Config.ethHdrLen + h.ihl.toNat * 4

/-- An operand buffer of `n` bytes is longer than P_MAX_BUF (R210). -/
def oversize (p : Params) (n : Nat) : Bool :=
  match p.maxBuf with
  | none => false
  | some m => decide (m < n)

/-- A TCP_CSUM or TCP_SEAL segment of `n` bytes is refused: over P_MAX_BUF or over 65535 bytes (R210, R601). -/
def oversizeSegment (p : Params) (n : Nat) : Bool := oversize p n || decide (Config.maxSegment < n)

/-- The 4-bit code of a connection state (R113). -/
def stateCode : ConnState → BitVec 4
  | .listen => 0
  | .synReceived => 1
  | .established => 2
  | .finWait1 => 3
  | .finWait2 => 4
  | .closeWait => 5
  | .closing => 6
  | .lastAck => 7
  | .closed => 8
  | .synSent => 9
  | .timeWait => 10

/-- The 8-bit code of a status (R330). -/
def statusCode : Status → Byte
  | .ok => 0x00
  | .formatError => 0x01
  | .protocolMismatch => 0x02
  | .droppedPort => 0x03
  | .unhandledFlags => 0x04
  | .illegalCommand => 0x05
  | .fatalEntropy => 0xFF

end Sys2Proof.Machine
end

