-- ==== Sys2Proof/Machine/Ops.lean ====
section
/-! DEFINITION. The operations the commands share: answering, the FATAL test that opens every command (60_exceptions.md
R811, R812), refusals (R807), reading a register (10_state.md R118), drawing entropy (46_connection.md R654), the
register writes of the two handlers, EntropyFailure, and reset (70_reset_and_hazards.md R900). The block has no traps
(R813, R814): `State.enterFatal` and `State.hardReset` stand where taking and leaving an exception would. -/

namespace Sys2Proof.Machine

/-- What a meaning answers. -/
abbrev Result := Host.Outcome State Fault Refusal

/-- `return (S, r)`: the command ends with status `st` and result `r` (R18). -/
def State.answer (s : State) (st : Status) (r : Option Value) : State := { s with response := some ⟨st, r⟩ }

/-- The first check of every command, reserved codes included: under FATAL = 1 it returns FATAL_ENTROPY with no
result, reads no operand, writes nothing and draws nothing (R811, R812). -/
def unlessFatal (s : State) (k : Result) : Result :=
  if s.fatal then .next (s.answer .fatalEntropy none) else k

/-- refuse(OVERSIZE) unless the operand buffer of `n` bytes is admitted (R210). -/
def admitBuffer (s : State) (n : Nat) (k : Result) : Result :=
  if oversize s.cfg n then .refused .oversize else k

/-- refuse(OVERSIZE) unless the segment operand of `n` bytes is admitted (R210, R601). -/
def admitSegment (s : State) (n : Nat) (k : Result) : Result :=
  if oversizeSegment s.cfg n then .refused .oversize else k

/-- refuse(LINK_TYPE) unless P_LINK_TYPE is ETHERNET (R706, R807). -/
def admitLink (s : State) (k : Result) : Result :=
  match s.cfg.linkType with
  | .ethernet => k
  | .other _ => .refused .linkType

/-- The command returns what a codec gave: its record with OK, or the codec's error status with no result. -/
def State.answerDecoded (s : State) : Except Status Value → State
  | .ok v => s.answer .ok (some v)
  | .error st => s.answer st none

/-- Reads a register for a rule that needs a value: UNWRITTEN faults (R118). -/
def readReg {α : Type} (n : RegName) : Reg α → Except Fault α
  | .unwritten => .error (.unwrittenRead n)
  | .written v => .ok v

/-- The entropy source's answer to the next draw: the next scripted one, or the free value (R654). -/
def entropyAnswer (s : State) : Option U32 :=
  match s.entropy with
  | a :: _ => a
  | [] => Config.freeEntropy s.draws

/-- The state after a draw: the answer is used up, so that each draw is a fresh one (R119, R654). -/
def State.drawn (s : State) : State := { s with entropy := s.entropy.tail, draws := s.draws + 1 }

/-- EntropyFailure's one lasting effect: FATAL is set (R111, R654, R803). -/
def State.enterFatal (s : State) : State := { s with fatal := true }

/-- The register writes of a successful ON_SYN (R651): remote endpoint, ISN, expected receive number, state. -/
def State.acceptSyn (s : State) (rip : IPv4Addr) (rport : U16) (isn rn : U32) : State :=
  { s with conn := { s.conn with
      remoteIP := .written rip
      remotePort := .written rport
      sendSeq := .written isn
      recvNext := .written rn
      lastAckSent := .written rn
      state := .synReceived } }

/-- The register writes of a successful ON_ACK (R652): the state and the send-sequence counter. -/
def State.acceptAck (s : State) (next : U32) : State :=
  { s with conn := { s.conn with state := .established, sendSeq := .written next } }

/-- P_LOCAL_IP and P_LOCAL_PORT are sampled; the other parameters are constant for a run (R900). -/
def State.sampleLocal (s : State) (localIP : IPv4Addr) (localPort : U16) : State :=
  { s with cfg := { s.cfg with localIP := localIP, localPort := localPort } }

/-- The block's state takes its reset values from the parameters: the Connection registers, and FATAL 0 (R120, R900). -/
def State.clearBlock (s : State) : State :=
  { s with conn := Connection.atReset s.cfg, fatal := false, response := none }

/-- Reset (R900): P_LOCAL_IP and P_LOCAL_PORT are sampled at these values, then every register takes its reset value.
The host's stream and the entropy source are outside the block and stay. -/
def State.hardReset (s : State) (localIP : IPv4Addr) (localPort : U16) : State :=
  (s.sampleLocal localIP localPort).clearBlock

/-- What a handler or the pipeline returns: a status, a result, and the state with its register updates (R17). -/
structure Txn (α : Type) where
  status : Status
  result : Option α
  after : State
  deriving DecidableEq, Repr

/-- Ends a command with what a handler returned, its result tagged as a result value. -/
def settle {α : Type} (tag : α → Value) : Except Fault (Txn α) → Result
  | .error f => .fault f
  | .ok t => .next (t.after.answer t.status (t.result.map tag))

/-- The next host event and the state without it (R102, R213). -/
def nextEvent (s : State) : Option (HostEvent × State) :=
  match s.inputs with
  | [] => none
  | e :: rest => some (e, { s with inputs := rest })

/-- A transaction whose operands fit no command: under FATAL it is answered like every command, which reads no
operand (R812); otherwise the model gives it no meaning (assumption log 1). -/
def rejectTransaction (s : State) : DecodeError → Result
  | .operandTypes op => unlessFatal s (.refused (.operandTypes op))

/-- The host issues an opcode-table word next. -/
def State.issueTableWord (s : State) (nbits w : Nat) : State :=
  { s with inputs := .command (tableCommand nbits w) :: s.inputs }

end Sys2Proof.Machine
end

