-- ==== Sys2Proof/Machine/Checksum.lean ====
section
/-! DEFINITION. The checksum engine and CSUM (41_checksum.md R400 to R407). -/

namespace Sys2Proof.Machine

/-- One's-complement addition with end-around carry, `+'` (R401). -/
def ocAdd (a b : U16) : U16 :=
  let t := a.toNat + b.toNat
  BitVec.ofNat 16 (t % 0x10000 + t / 0x10000)

/-- The buffer with the conceptual zero byte that makes its length even (R402). -/
def padEven (buf : Buffer) : Buffer := if buf.length % 2 = 1 then buf ++ zeros 1 else buf

/-- The consecutive big-endian 16-bit words of a buffer of even length (R402). -/
def words : Buffer → List U16
  | hi :: lo :: rest => (hi ++ lo) :: words rest
  | _ => []

/-- The sum with the carry folded after each addition (R400). -/
def onesSum (buf : Buffer) : U16 := (words (padEven buf)).foldl ocAdd 0

/-- The fold "once more at the end" (R400); it has no effect (R403). -/
def finalFold (sum : U16) : U16 := (sum &&& 0xFFFF#16) + (sum >>> 16)

/-- `CsumValue(buf)`: the internet checksum of a buffer (R400). -/
def csumValue (buf : Buffer) : U16 := ~~~ finalFold (onesSum buf)

/-- CSUM (R400). -/
def execCsum (buf : Buffer) (s : State) : Result :=
  unlessFatal s <| admitBuffer s buf.length <|
    .next (s.answer .ok (some (.u16 (csumValue buf))))

end Sys2Proof.Machine
end

