-- ==== Sys2Proof/Machine/Ethernet.lean ====
section
/-! DEFINITION. The Ethernet header codec: ETH_DEC and ETH_ENC (42_ethernet.md R450 to R453). -/

namespace Sys2Proof.Machine

/-- Decodes the first 14 bytes (R310, R450); the EtherType and the MAC bits are not checked. -/
def ethDecode (buf : Buffer) : Except Status EthernetFrame :=
  if buf.length < Config.ethHdrLen then .error .formatError
  else .ok { dst := macAt buf 0, src := macAt buf 6, etherType := memRead16 buf 12 }

/-- Encodes as exactly 14 bytes (R451). -/
def ethEncode (f : EthernetFrame) : Buffer := macBytes f.dst ++ macBytes f.src ++ bytesOf16 f.etherType

/-- ETH_DEC (R450). -/
def execEthDec (buf : Buffer) (s : State) : Result :=
  unlessFatal s <| admitBuffer s buf.length <|
    .next (s.answerDecoded ((ethDecode buf).map .ethernetFrame))

/-- ETH_ENC (R451). -/
def execEthEnc (f : EthernetFrame) (s : State) : Result :=
  unlessFatal s <| .next (s.answer .ok (some (.bytes (ethEncode f))))

end Sys2Proof.Machine
end

