-- ==== Sys2Proof/Machine/Flags.lean ====
section
/-! DEFINITION. The 9-bit TCP flag value (30_encoding.md R320): the position of every flag, its packing into bytes 12
and 13 (R314), and the flags of the block's own reply. The block itself has no condition codes (10_state.md R116). -/

namespace Sys2Proof.Machine

/-- The nine TCP flags of R320. -/
inductive TcpFlag where
  | fin | syn | rst | psh | ack | urg | ece | cwr | ns
  deriving DecidableEq, Repr

/-- The position of a flag in the 9-bit flag value (R320). -/
def flagBit : TcpFlag → Nat
  | .fin => 0
  | .syn => 1
  | .rst => 2
  | .psh => 3
  | .ack => 4
  | .urg => 5
  | .ece => 6
  | .cwr => 7
  | .ns => 8

/-- Whether a segment carries a flag. -/
def hasFlag (seg : TCPSegment) (f : TcpFlag) : Bool := seg.flags.getLsbD (flagBit f)

/-- SYN|ACK, 0x012 (R320). -/
def synAckFlags : BitVec 9 := 0x012

/-- The 9-bit flag value from bytes 12 and 13: NS is the low bit of byte 12 (R314). -/
def flagsOfBytes (b12 b13 : Byte) : BitVec 9 := b12.extractLsb' 0 1 ++ b13

/-- Byte 12: the data offset, three zero bits, NS (R314, R321). -/
def flagByte12 (dataOffset : BitVec 4) (flags : BitVec 9) : Byte := dataOffset ++ 0#3 ++ flags.extractLsb' 8 1

/-- Byte 13: the eight low flags verbatim (R314). -/
def flagByte13 (flags : BitVec 9) : Byte := flags.extractLsb' 0 8

end Sys2Proof.Machine
end

