-- ==== Sys2Proof/Machine/Handshake.lean ====
section
/-! DEFINITION. The connection state machine: ON_SYN and ON_ACK (46_connection.md R650 to R657). -/

namespace Sys2Proof.Machine

/-- The SYN+ACK segment of ON_SYN (R651). -/
def synAckSegment (s : State) (rport : U16) (isn rn : U32) : TCPSegment where
  srcPort := s.conn.localPort
  dstPort := rport
  seqNum := isn
  ackNum := rn
  dataOffset := Config.producedDataOffset
  flags := synAckFlags
  window := s.cfg.synAckWindow

/-- The handler of an inbound SYN, FATAL being 0 (R651, R654). Of the segment only seqNum is read; outside LISTEN
nothing is drawn (R811). -/
def handleSyn (seg : TCPSegment) (rip : IPv4Addr) (rport : U16) (s : State) : Txn TCPSegment :=
  match s.conn.state with
  | .listen =>
    match entropyAnswer s with
    | none => ⟨.fatalEntropy, none, s.drawn.enterFatal⟩
    | some isn =>
      let rn := seg.seqNum + 1
      ⟨.ok, some (synAckSegment s rport isn rn), s.drawn.acceptSyn rip rport isn rn⟩
  | _ => ⟨.protocolMismatch, none, s⟩

/-- The handler of an inbound ACK, FATAL being 0 (R652). Of the segment only ackNum is read. -/
def handleAck (seg : TCPSegment) (s : State) : Except Fault (Txn TCPSegment) :=
  match s.conn.state with
  | .synReceived =>
    match readReg .sendSeq s.conn.sendSeq with
    | .error f => .error f
    | .ok sendSeq =>
      if seg.ackNum = sendSeq + 1 then .ok ⟨.ok, none, s.acceptAck (sendSeq + 1)⟩
      else .ok ⟨.protocolMismatch, none, s⟩
  | _ => .ok ⟨.protocolMismatch, none, s⟩

/-- ON_SYN (R651). -/
def execOnSyn (seg : TCPSegment) (rip : IPv4Addr) (rport : U16) (s : State) : Result :=
  unlessFatal s <| settle .tcpSegment (.ok (handleSyn seg rip rport s))

/-- ON_ACK (R652). -/
def execOnAck (seg : TCPSegment) (s : State) : Result :=
  unlessFatal s <| settle .tcpSegment (handleAck seg s)

end Sys2Proof.Machine
end

