-- ==== Sys2Proof/Machine/Ipv4.lean ====
section
/-! DEFINITION. The IPv4 header codec: IP4_DEC and IP4_ENC (43_ipv4.md R500 to R504). -/

namespace Sys2Proof.Machine

/-- Decodes the first 20 bytes (R311, R312, R500). Version, IHL, checksum and total length are returned as read
(R503). -/
def ip4Decode (buf : Buffer) : Except Status IPv4Header :=
  if buf.length < Config.ip4HdrLen then .error .formatError
  else .ok
    { version := (byteAt buf 0).extractLsb' 4 4
      ihl := (byteAt buf 0).extractLsb' 0 4
      tos := byteAt buf 1
      totalLen := memRead16 buf 2
      id := memRead16 buf 4
      flags := (byteAt buf 6).extractLsb' 5 3
      fragOff := (byteAt buf 6).extractLsb' 0 5 ++ byteAt buf 7
      ttl := byteAt buf 8
      protocol := byteAt buf 9
      checksum := memRead16 buf 10
      src := addrAt buf 12
      dst := addrAt buf 16 }

/-- Byte 0: version and IHL (R312). -/
def ip4Byte0 (h : IPv4Header) : Byte := h.version ++ h.ihl

/-- Byte 6: the flags and the top five bits of the fragment offset (R312). -/
def ip4Byte6 (h : IPv4Header) : Byte := h.flags ++ h.fragOff.extractLsb' 8 5

/-- Encodes as exactly 20 bytes, every field as given; no checksum is computed, no option emitted (R501). -/
def ip4Encode (h : IPv4Header) : Buffer :=
  let out := zeros Config.ip4HdrLen
  let out := memWrite8 out 0 (ip4Byte0 h)
  let out := memWrite8 out 1 h.tos
  let out := memWrite16 out 2 h.totalLen
  let out := memWrite16 out 4 h.id
  let out := memWrite8 out 6 (ip4Byte6 h)
  let out := memWrite8 out 7 (h.fragOff.extractLsb' 0 8)
  let out := memWrite8 out 8 h.ttl
  let out := memWrite8 out 9 h.protocol
  let out := memWrite16 out 10 h.checksum
  let out := writeAddr out 12 h.src
  writeAddr out 16 h.dst

/-- IP4_DEC (R500). -/
def execIp4Dec (buf : Buffer) (s : State) : Result :=
  unlessFatal s <| admitBuffer s buf.length <|
    .next (s.answerDecoded ((ip4Decode buf).map .ipv4Header))

/-- IP4_ENC (R501). -/
def execIp4Enc (h : IPv4Header) (s : State) : Result :=
  unlessFatal s <| .next (s.answer .ok (some (.bytes (ip4Encode h))))

end Sys2Proof.Machine
end

