-- ==== Sys2Proof/Machine/PseudoHeader.lean ====
section
/-! DEFINITION. The TCP pseudo-header checksum: TCP_CSUM and TCP_SEAL (45_pseudo_header.md R600 to R604). -/

namespace Sys2Proof.Machine

/-- `PseudoHdr(src, dst, n)`: 12 bytes, never transmitted (R315, R601). -/
def pseudoHdr (src dst : IPv4Addr) (n : U16) : Buffer :=
  addrBytes src ++ addrBytes dst ++ [0x00, Config.protoTcp] ++ bytesOf16 n

/-- The checksum of a segment over its pseudo-header, the bytes exactly as given (R600). -/
def tcpChecksum (src dst : IPv4Addr) (seg : Buffer) : U16 :=
  csumValue (pseudoHdr src dst (BitVec.ofNat 16 seg.length) ++ seg)

/-- A segment of at least 20 bytes with bytes 16-17 zeroed, the checksum computed, and written back (R602). -/
def sealSegment (src dst : IPv4Addr) (seg : Buffer) : Buffer :=
  let z := memWrite16 seg 16 0
  memWrite16 z 16 (tcpChecksum src dst z)

/-- The length check of TCP_SEAL, then the sealing (R602, R801). -/
def tcpSealed (src dst : IPv4Addr) (seg : Buffer) : Except Status Buffer :=
  if seg.length < Config.tcpHdrLen then .error .formatError else .ok (sealSegment src dst seg)

/-- TCP_CSUM (R600). -/
def execTcpCsum (src dst : IPv4Addr) (seg : Buffer) (s : State) : Result :=
  unlessFatal s <| admitSegment s seg.length <|
    .next (s.answer .ok (some (.u16 (tcpChecksum src dst seg))))

/-- TCP_SEAL (R602). -/
def execTcpSeal (src dst : IPv4Addr) (seg : Buffer) (s : State) : Result :=
  unlessFatal s <| admitSegment s seg.length <|
    .next (s.answerDecoded ((tcpSealed src dst seg).map .bytes))

end Sys2Proof.Machine
end

