-- ==== Sys2Proof/Machine/Tcp.lean ====
section
/-! DEFINITION. The TCP header codec: TCP_DEC and TCP_ENC (44_tcp.md R550 to R554). -/

namespace Sys2Proof.Machine

/-- Decodes the first 20 bytes (R313, R314, R550). Bits 3..1 of byte 12 and bytes 16 to 19 are not read (R321,
R322); the data offset is returned as read (R554). -/
def tcpDecode (buf : Buffer) : Except Status TCPSegment :=
  if buf.length < Config.tcpHdrLen then .error .formatError
  else .ok
    { srcPort := memRead16 buf 0
      dstPort := memRead16 buf 2
      seqNum := memRead32 buf 4
      ackNum := memRead32 buf 8
      dataOffset := (byteAt buf 12).extractLsb' 4 4
      flags := flagsOfBytes (byteAt buf 12) (byteAt buf 13)
      window := memRead16 buf 14 }

/-- Encodes as exactly 20 bytes; the reserved bits and bytes 16 to 19 stay 0 (R321, R322, R551). -/
def tcpEncode (seg : TCPSegment) : Buffer :=
  let out := zeros Config.tcpHdrLen
  let out := memWrite16 out 0 seg.srcPort
  let out := memWrite16 out 2 seg.dstPort
  let out := memWrite32 out 4 seg.seqNum
  let out := memWrite32 out 8 seg.ackNum
  let out := memWrite8 out 12 (flagByte12 seg.dataOffset seg.flags)
  let out := memWrite8 out 13 (flagByte13 seg.flags)
  memWrite16 out 14 seg.window

/-- TCP_DEC (R550). -/
def execTcpDec (buf : Buffer) (s : State) : Result :=
  unlessFatal s <| admitBuffer s buf.length <|
    .next (s.answerDecoded ((tcpDecode buf).map .tcpSegment))

/-- TCP_ENC (R551). -/
def execTcpEnc (seg : TCPSegment) (s : State) : Result :=
  unlessFatal s <| .next (s.answer .ok (some (.bytes (tcpEncode seg))))

end Sys2Proof.Machine
end

