-- ==== Sys2Proof/Machine/Pipeline.lean ====
section
/-! DEFINITION. The dispatch policy and the frame pipeline: DISPATCH and RX_FRAME (47_dispatch_pipeline.md R700 to
R706). -/

namespace Sys2Proof.Machine

/-- Selects the handler of an inbound segment, FATAL being 0: the port first, then SYN, then ACK (R700, R811). -/
def dispatchSegment (seg : TCPSegment) (sip : IPv4Addr) (s : State) : Except Fault (Txn TCPSegment) :=
  if seg.dstPort ≠ s.conn.localPort then .ok ⟨.droppedPort, none, s⟩
  else if hasFlag seg .syn then .ok (handleSyn seg sip seg.srcPort s)
  else if hasFlag seg .ack then handleAck seg s
  else .ok ⟨.unhandledFlags, none, s⟩

/-- The IPv4 header of a reply carrying a segment of `tcpLen` bytes, its checksum field zero (R703). -/
def replyHeader (p : Params) (src dst : IPv4Addr) (tcpLen : Nat) : IPv4Header where
  version := 4
  ihl := 5
  tos := p.txTos
  totalLen := BitVec.ofNat 16 (Config.ip4HdrLen + tcpLen)
  id := p.txId
  flags := p.txFlags
  fragOff := 0
  ttl := p.txTtl
  protocol := Config.protoTcp
  checksum := 0
  src := src
  dst := dst

/-- An encoded IPv4 header with the internet checksum of its bytes written at bytes 10-11 (R703). -/
def patchIp4Checksum (ip : Buffer) : Buffer := memWrite16 ip 10 (csumValue ip)

/-- The bytes of the outbound frame: Ethernet header with the MACs swapped, IPv4 header, sealed TCP header, no
padding (R703). -/
def replyFrame (p : Params) (src dst : IPv4Addr) (eth : EthernetFrame) (r : TCPSegment) : Buffer :=
  let tcp := sealSegment src dst (tcpEncode r)
  let ip := patchIp4Checksum (ip4Encode (replyHeader p src dst tcp.length))
  let ethb := ethEncode { dst := eth.src, src := eth.dst, etherType := Config.etherTypeIPv4 }
  ethb ++ ip ++ tcp

/-- `BuildReply(eth, r)`: conn.localIP and conn.remoteIP are read after the handler's writes (R703, R604). -/
def buildReply (eth : EthernetFrame) (r : TCPSegment) (s : State) : Except Fault Buffer :=
  match readReg .remoteIP s.conn.remoteIP with
  | .error f => .error f
  | .ok remoteIP => .ok (replyFrame s.cfg s.conn.localIP remoteIP eth r)

/-- The end of RX_FRAME: a response segment becomes the outbound frame, every other outcome has no result (R701,
R704). -/
def replyTo (eth : EthernetFrame) (t : Txn TCPSegment) : Except Fault (Txn Buffer) :=
  match t.status, t.result with
  | .ok, some r =>
    match buildReply eth r t.after with
    | .error f => .error f
    | .ok out => .ok ⟨.ok, some out, t.after⟩
  | st, _ => .ok ⟨st, none, t.after⟩

/-- The pipeline on one captured frame, FATAL being 0: decode in header order, dispatch, reply (R207, R701). EtherType,
version, protocol, destination address and total length are not checked (R706). -/
def processFrame (frame : Buffer) (s : State) : Except Fault (Txn Buffer) :=
  match ethDecode frame with
  | .error st => .ok ⟨st, none, s⟩
  | .ok eth =>
    match ip4Decode (frame.drop Config.ethHdrLen) with
    | .error st => .ok ⟨st, none, s⟩
    | .ok ip =>
      match tcpDecode (frame.drop (tcpOffset ip)) with
      | .error st => .ok ⟨st, none, s⟩
      | .ok seg =>
        match dispatchSegment seg ip.src s with
        | .error f => .error f
        | .ok t => replyTo eth t

/-- DISPATCH (R700). -/
def execDispatch (seg : TCPSegment) (sip : IPv4Addr) (s : State) : Result :=
  unlessFatal s <| settle .tcpSegment (dispatchSegment seg sip s)

/-- RX_FRAME (R701). -/
def execRxFrame (frame : Buffer) (s : State) : Result :=
  unlessFatal s <| admitLink s <| admitBuffer s frame.length <|
    settle .bytes (processFrame frame s)

end Sys2Proof.Machine
end

