-- ==== Sys2Proof/Machine/System.lean ====
section
/-! DEFINITION. The system commands: CONN_READ and the reserved codes (48_system.md R750, R751). -/

namespace Sys2Proof.Machine

/-- The snapshot CONN_READ returns: the state's code, the registers, and their UNWRITTEN markers (R316, R750). -/
def connView (c : Connection) : ConnView where
  state := stateCode c.state
  localIP := c.localIP
  localPort := c.localPort
  remoteIP := c.remoteIP
  remotePort := c.remotePort
  sendSeq := c.sendSeq
  recvNext := c.recvNext
  lastAckSent := c.lastAckSent

/-- CONN_READ (R750). -/
def execConnRead (s : State) : Result :=
  unlessFatal s <| .next (s.answer .ok (some (.connView (connView s.conn))))

/-- RESERVED (R751): the code and the operands do not matter. -/
def execReserved (_code : Byte) (s : State) : Result :=
  unlessFatal s <| .next (s.answer .illegalCommand none)

end Sys2Proof.Machine
end

