-- ==== Sys2Proof/Machine/Dispatch.lean ====
section
/-! DEFINITION. The meaning of a decoded command: one arm per constructor of `Instr`. -/

namespace Sys2Proof.Machine

def exec (i : Instr) (s : State) : Host.Outcome State Fault Refusal :=
  match i with
  | .csum buf => Sys2Proof.Machine.execCsum buf s
  | .ethDec buf => Sys2Proof.Machine.execEthDec buf s
  | .ethEnc f => Sys2Proof.Machine.execEthEnc f s
  | .ip4Dec buf => Sys2Proof.Machine.execIp4Dec buf s
  | .ip4Enc h => Sys2Proof.Machine.execIp4Enc h s
  | .tcpDec buf => Sys2Proof.Machine.execTcpDec buf s
  | .tcpEnc seg => Sys2Proof.Machine.execTcpEnc seg s
  | .tcpCsum src dst seg => Sys2Proof.Machine.execTcpCsum src dst seg s
  | .tcpSeal src dst seg => Sys2Proof.Machine.execTcpSeal src dst seg s
  | .onSyn seg rip rport => Sys2Proof.Machine.execOnSyn seg rip rport s
  | .onAck seg => Sys2Proof.Machine.execOnAck seg s
  | .dispatch seg sip => Sys2Proof.Machine.execDispatch seg sip s
  | .rxFrame frame => Sys2Proof.Machine.execRxFrame frame s
  | .connRead => Sys2Proof.Machine.execConnRead s
  | .reserved code => Sys2Proof.Machine.execReserved code s

end Sys2Proof.Machine
end

