-- ==== Sys2Proof/Machine/Step.lean ====
section
/-! DEFINITION. One step: the host's next event, performed whole (20_memory.md R211, R213). -/

namespace Sys2Proof.Machine

/-- One step. With nothing issued the block holds its state (R820); a reset resets it (R900); a command is decoded
and executed. -/
def step (s : State) : Host.Outcome State Fault Refusal :=
  match nextEvent s with
  | none => .next s
  | some (.reset localIP localPort, s') => .next (s'.hardReset localIP localPort)
  | some (.command c, s') =>
    match decode c with
    | .ok i => exec i s'
    | .error e => rejectTransaction s' e

/-- `s` with an opcode-table word issued as the host's next command, so that the next step runs it (assumption log 2). -/
def State.withFetchWord (s : State) (nbits w : Nat) : State := s.issueTableWord nbits w

end Sys2Proof.Machine
end

