-- ==== Sys2Proof/Safety.lean ====
section
/-! DEFINITION. What counts as a good state and a safe outcome, in the terms the statements use. -/

namespace Sys2Proof.Machine

/-- The five registers that reset leaves UNWRITTEN hold UNWRITTEN (10_state.md R120). -/
def remoteUnwritten (c : Connection) : Prop :=
  c.remoteIP = .unwritten ∧ c.remotePort = .unwritten ∧ c.sendSeq = .unwritten ∧ c.recvNext = .unwritten ∧
    c.lastAckSent = .unwritten

/-- The five registers hold values, and lastAckSent equals recvNext, as ON_SYN leaves them (R106 to R110). -/
def remoteWritten (c : Connection) : Prop :=
  ∃ rip rport q rn, c.remoteIP = .written rip ∧ c.remotePort = .written rport ∧ c.sendSeq = .written q ∧
    c.recvNext = .written rn ∧ c.lastAckSent = .written rn

/-- The invariant of the reachable states: only the three handshake states are held (R114); the local registers keep
the values the last reset sampled (R104, R105, R112); the remote registers are UNWRITTEN in LISTEN and written in the other two
states (R115); FATAL is set in LISTEN only (R654, R812); the parameters are as R12 allows. -/
structure State.Inv (s : State) : Prop where
  handshake : s.conn.state = .listen ∨ s.conn.state = .synReceived ∨ s.conn.state = .established
  localIP : s.conn.localIP = s.cfg.localIP
  localPort : s.conn.localPort = s.cfg.localPort
  listening : s.conn.state = .listen → remoteUnwritten s.conn
  connected : s.conn.state ≠ .listen → remoteWritten s.conn
  fatalListens : s.fatal = true → s.conn.state = .listen
  params : s.cfg.wf = true

/-- The host asserts reset next, with whatever values of P_LOCAL_IP and P_LOCAL_PORT (R705, R900). -/
def State.resetNext (s : State) : Prop := ∃ ip port, s.inputs.head? = some (.reset ip port)

/-- An outcome that is no fault: a next state, or a refusal, which R807 puts outside the block's statuses. -/
def safeOutcome : Host.Outcome State Fault Refusal → Prop
  | .next _ => True
  | .refused _ => True
  | .fault _ => False

/-- The commands that can reach ON_SYN, and with it the entropy source (R212, R330). -/
def reachesOnSyn : Instr → Bool
  | .csum _ => false
  | .ethDec _ => false
  | .ethEnc _ => false
  | .ip4Dec _ => false
  | .ip4Enc _ => false
  | .tcpDec _ => false
  | .tcpEnc _ => false
  | .tcpCsum _ _ _ => false
  | .tcpSeal _ _ _ => false
  | .onSyn _ _ _ => true
  | .onAck _ => false
  | .dispatch _ _ => true
  | .rxFrame _ => true
  | .connRead => false
  | .reserved _ => false

/-- The commands that can reach ON_ACK (R112, R212). -/
def reachesOnAck : Instr → Bool
  | .csum _ => false
  | .ethDec _ => false
  | .ethEnc _ => false
  | .ip4Dec _ => false
  | .ip4Enc _ => false
  | .tcpDec _ => false
  | .tcpEnc _ => false
  | .tcpCsum _ _ _ => false
  | .tcpSeal _ _ _ => false
  | .onSyn _ _ _ => false
  | .onAck _ => true
  | .dispatch _ _ => true
  | .rxFrame _ => true
  | .connRead => false
  | .reserved _ => false

end Sys2Proof.Machine
end

