-- ==== Sys2Proof/Certificates/Slice0/Obligations.lean ====
section
/-! DEFINITION. The statements for the provers. `Sys2Proof.Claims` holds the terms they use, written from the rules of
spec/ in plain byte and number arithmetic, apart from the model's own functions. -/

namespace Sys2Proof.Claims

open Sys2Proof Sys2Proof.Machine

/-- `return (S, r)` of R18 with nothing else written. -/
def answered (s : State) (st : Status) (r : Option Value) : State := { s with response := some ⟨st, r⟩ }

/-- An operand of `n` bytes is not longer than P_MAX_BUF (R210). -/
def Admits (s : State) (n : Nat) : Prop := ∀ m, s.cfg.maxBuf = some m → n ≤ m

/-- An operand of `n` bytes is longer than P_MAX_BUF (R210). -/
def TooLong (s : State) (n : Nat) : Prop := ∃ m, s.cfg.maxBuf = some m ∧ m < n

/-- Under FATAL = 1 the command returns FATAL_ENTROPY and does nothing else (R812). -/
def FatalFirst (i : Instr) : Prop := ∀ s, s.fatal = true → exec i s = .next (answered s .fatalEntropy none)

/-- Under FATAL = 0 the command is refused OVERSIZE when its operand of `n` bytes is longer than P_MAX_BUF (R210). -/
def RefusesTooLong (i : Instr) (n : Nat) : Prop :=
  ∀ s, s.fatal = false → TooLong s n → exec i s = .refused .oversize

/-- The high byte of a 16-bit value. -/
def hi (v : U16) : Byte := BitVec.ofNat 8 (v.toNat / 256)

/-- The low byte of a 16-bit value. -/
def lo (v : U16) : Byte := BitVec.ofNat 8 (v.toNat % 256)

/-- The four big-endian bytes of a 32-bit value (R204). -/
def bytes32 (v : U32) : Buffer :=
  [BitVec.ofNat 8 (v.toNat / 2 ^ 24), BitVec.ofNat 8 (v.toNat / 2 ^ 16 % 256), BitVec.ofNat 8 (v.toNat / 2 ^ 8 % 256),
    BitVec.ofNat 8 (v.toNat % 256)]

/-- Two bytes as a big-endian 16-bit value (R203). -/
def be16 (a b : Byte) : U16 := BitVec.ofNat 16 (a.toNat * 256 + b.toNat)

/-- Four bytes as a big-endian 32-bit value (R203). -/
def be32 (a b c d : Byte) : U32 :=
  BitVec.ofNat 32 (a.toNat * 2 ^ 24 + b.toNat * 2 ^ 16 + c.toNat * 2 ^ 8 + d.toNat)

/-- `a +' b` on numbers (R401). -/
def endAround (a b : Nat) : Nat := (a + b) % 0x10000 + (a + b) / 0x10000

/-- The buffer with the zero byte that pads an odd length (R402). -/
def padded (buf : Buffer) : Buffer := if buf.length % 2 = 1 then buf ++ [0] else buf

/-- Word k of a buffer: `MemRead(p, 2k, 2)` as a number (R402). -/
def wordAt (p : Buffer) (k : Nat) : Nat := (p.getD (2 * k) 0).toNat * 256 + (p.getD (2 * k + 1) 0).toNat

/-- The running sum of R400 after the last word: the carry is folded after each addition. -/
def foldedSum (buf : Buffer) : Nat :=
  (List.range ((padded buf).length / 2)).foldl (fun sum k => endAround sum (wordAt (padded buf) k)) 0

/-- The sum of all words in an accumulator wide enough for every carry (R403). -/
def wideSum (buf : Buffer) : Nat := ((List.range ((padded buf).length / 2)).map (wordAt (padded buf))).sum

/-- One fold of a wide sum: what lies above 16 bits is added back in (R403). -/
def foldOnce (n : Nat) : Nat := n % 0x10000 + n / 0x10000

/-- `~16` of the folded sum: the internet checksum (R19, R400). -/
def checksumOf (buf : Buffer) : U16 := BitVec.ofNat 16 (foldedSum buf) ^^^ 0xFFFF

/-- The bytes of an address in index order. -/
def addr4 (a : IPv4Addr) : Buffer := [a.b0, a.b1, a.b2, a.b3]

/-- The 12-byte pseudo-header of a segment of `n` bytes (R601). -/
def pseudoOf (src dst : IPv4Addr) (n : Nat) : Buffer :=
  addr4 src ++ addr4 dst ++ [0x00, 0x06, BitVec.ofNat 8 (n / 256), BitVec.ofNat 8 (n % 256)]

/-- A segment with the two given bytes at 16-17 and every other byte as before. -/
def withField (seg : Buffer) (a b : Byte) : Buffer := seg.take 16 ++ [a, b] ++ seg.drop 18

/-- The checksum TCP_SEAL computes: over the segment with its checksum field zero (R602). -/
def sealValue (src dst : IPv4Addr) (seg : Buffer) : U16 :=
  checksumOf (pseudoOf src dst seg.length ++ withField seg 0 0)

/-- The 14 bytes of an Ethernet header (R310). -/
def ethBytes (f : EthernetFrame) : Buffer :=
  [f.dst.b0, f.dst.b1, f.dst.b2, f.dst.b3, f.dst.b4, f.dst.b5, f.src.b0, f.src.b1, f.src.b2, f.src.b3, f.src.b4,
    f.src.b5, hi f.etherType, lo f.etherType]

/-- The 20 bytes of an IPv4 header (R311, R312). -/
def ip4Bytes (h : IPv4Header) : Buffer :=
  [BitVec.ofNat 8 (h.version.toNat * 16 + h.ihl.toNat), h.tos, hi h.totalLen, lo h.totalLen, hi h.id, lo h.id,
    BitVec.ofNat 8 (h.flags.toNat * 32 + h.fragOff.toNat / 256), BitVec.ofNat 8 (h.fragOff.toNat % 256), h.ttl,
    h.protocol, hi h.checksum, lo h.checksum] ++ addr4 h.src ++ addr4 h.dst

/-- The 20 bytes of a TCP header with a checksum field, reserved bits and urgent pointer zero (R313, R314, R321). -/
def tcpBytes (seg : TCPSegment) (ck : U16) : Buffer :=
  [hi seg.srcPort, lo seg.srcPort, hi seg.dstPort, lo seg.dstPort] ++ bytes32 seg.seqNum ++ bytes32 seg.ackNum ++
    [BitVec.ofNat 8 (seg.dataOffset.toNat * 16 + seg.flags.toNat / 256), BitVec.ofNat 8 (seg.flags.toNat % 256),
      hi seg.window, lo seg.window, hi ck, lo ck, 0, 0]

/-- The TCPSegment record of 16 header bytes (R313, R314). -/
def segmentOf (b0 b1 b2 b3 b4 b5 b6 b7 b8 b9 b10 b11 b12 b13 b14 b15 : Byte) : TCPSegment where
  srcPort := be16 b0 b1
  dstPort := be16 b2 b3
  seqNum := be32 b4 b5 b6 b7
  ackNum := be32 b8 b9 b10 b11
  dataOffset := BitVec.ofNat 4 (b12.toNat / 16)
  flags := BitVec.ofNat 9 (b12.toNat % 2 * 256 + b13.toNat)
  window := be16 b14 b15

/-- The SYN+ACK of R651. -/
def synAck (s : State) (rport : U16) (isn rn : U32) : TCPSegment where
  srcPort := s.conn.localPort
  dstPort := rport
  seqNum := isn
  ackNum := rn
  dataOffset := 5
  flags := 0x012
  window := s.cfg.synAckWindow

/-- What R651 leaves after a successful ON_SYN, the result apart: six registers written, one draw used up. -/
def synAccepted (s : State) (seqNum : U32) (rip : IPv4Addr) (rport : U16) (isn : U32) : State where
  conn :=
    { state := .synReceived
      localIP := s.conn.localIP
      localPort := s.conn.localPort
      remoteIP := .written rip
      remotePort := .written rport
      sendSeq := .written isn
      recvNext := .written (seqNum + 1)
      lastAckSent := .written (seqNum + 1) }
  fatal := s.fatal
  cfg := s.cfg
  inputs := s.inputs
  response := s.response
  entropy := s.entropy.tail
  draws := s.draws + 1

/-- What R654 leaves after a failed draw: FATAL, and the draw used up. -/
def drawFailed (s : State) : State := { s with fatal := true, entropy := s.entropy.tail, draws := s.draws + 1 }

/-- What R652 leaves after a successful ON_ACK with the counter at `q`. -/
def ackAccepted (s : State) (q : U32) : State :=
  { s with conn := { s.conn with state := .established, sendSeq := .written (q + 1) } }

/-- The offset of the TCP header in a frame, from the IHL at byte 14 (R207). -/
def tcpOff (frame : Buffer) : Nat := 14 + (frame.getD 14 0).toNat % 16 * 4

/-- The frame is long enough for its three headers (R701, R801). -/
def Parses (frame : Buffer) : Prop := 34 ≤ frame.length ∧ tcpOff frame + 20 ≤ frame.length

/-- The IPv4 source address of a frame: bytes 12 to 15 of the header at offset 14. -/
def frameSource (frame : Buffer) : IPv4Addr :=
  ⟨frame.getD 26 0, frame.getD 27 0, frame.getD 28 0, frame.getD 29 0⟩

/-- The TCP header of a frame (R207, R550). -/
def frameSegment (frame : Buffer) : TCPSegment :=
  let b (k : Nat) : Byte := frame.getD (tcpOff frame + k) 0
  segmentOf (b 0) (b 1) (b 2) (b 3) (b 4) (b 5) (b 6) (b 7) (b 8) (b 9) (b 10) (b 11) (b 12) (b 13) (b 14) (b 15)

/-- The inbound Ethernet addresses swapped, with EtherType 0x0800 (R703). -/
def replyEth (frame : Buffer) : Buffer :=
  (frame.drop 6).take 6 ++ frame.take 6 ++ [0x08, 0x00]

/-- The reply's IPv4 header with a checksum field (R703). -/
def replyIp (p : Params) (src dst : IPv4Addr) (ck : U16) : Buffer :=
  ip4Bytes ⟨4, 5, p.txTos, 40, p.txId, p.txFlags, 0, p.txTtl, 6, ck, src, dst⟩

/-- The outbound frame of R703: 54 bytes, both checksums computed with their field zero. -/
def replyBytes (p : Params) (src dst : IPv4Addr) (frame : Buffer) (r : TCPSegment) : Buffer :=
  replyEth frame ++ replyIp p src dst (checksumOf (replyIp p src dst 0)) ++
    tcpBytes r (checksumOf (pseudoOf src dst 20 ++ tcpBytes r 0))

/-- The commands R212 calls pure. -/
def IsPure : Instr → Prop
  | .csum _ => True
  | .ethDec _ => True
  | .ethEnc _ => True
  | .ip4Dec _ => True
  | .ip4Enc _ => True
  | .tcpDec _ => True
  | .tcpEnc _ => True
  | .tcpCsum _ _ _ => True
  | .tcpSeal _ _ _ => True
  | .onSyn _ _ _ => False
  | .onAck _ => False
  | .dispatch _ _ => False
  | .rxFrame _ => False
  | .connRead => False
  | .reserved _ => False

/-- The length of a command's byte-buffer operand, if it has one (R301). -/
def operandLength : Instr → Option Nat
  | .csum buf => some buf.length
  | .ethDec buf => some buf.length
  | .ethEnc _ => none
  | .ip4Dec buf => some buf.length
  | .ip4Enc _ => none
  | .tcpDec buf => some buf.length
  | .tcpEnc _ => none
  | .tcpCsum _ _ seg => some seg.length
  | .tcpSeal _ _ seg => some seg.length
  | .onSyn _ _ _ => none
  | .onAck _ => none
  | .dispatch _ _ => none
  | .rxFrame frame => some frame.length
  | .connRead => none
  | .reserved _ => none

/-- The commands whose segment R210 bounds by 65535 bytes. -/
def sumsSegment : Instr → Bool
  | .csum _ => false
  | .ethDec _ => false
  | .ethEnc _ => false
  | .ip4Dec _ => false
  | .ip4Enc _ => false
  | .tcpDec _ => false
  | .tcpEnc _ => false
  | .tcpCsum _ _ _ => true
  | .tcpSeal _ _ _ => true
  | .onSyn _ _ _ => false
  | .onAck _ => false
  | .dispatch _ _ => false
  | .rxFrame _ => false
  | .connRead => false
  | .reserved _ => false

/-- The states of R653: declared, without transitions. -/
def unimplemented : List ConnState :=
  [.finWait1, .finWait2, .closeWait, .closing, .lastAck, .closed, .synSent, .timeWait]

/-- The codes R302 reserves. -/
def Reserved (code : Byte) : Prop :=
  code.toNat = 0x00 ∨ (0x0A ≤ code.toNat ∧ code.toNat ≤ 0x0F) ∨ (0x14 ≤ code.toNat ∧ code.toNat ≤ 0x1F) ∨
    0x21 ≤ code.toNat

end Sys2Proof.Claims

open Sys2Proof Sys2Proof.Machine Sys2Proof.Claims

/-! ### Encoding -/

/-- The code map and the operand types of R301, for every operand value. -/
def Obligations.CodesSelectTheirCommands : Prop :=
  (∀ buf, decode ⟨0x01, [.bytes buf]⟩ = .ok (.csum buf)) ∧
  (∀ buf, decode ⟨0x02, [.bytes buf]⟩ = .ok (.ethDec buf)) ∧
  (∀ f, decode ⟨0x03, [.ethernetFrame f]⟩ = .ok (.ethEnc f)) ∧
  (∀ buf, decode ⟨0x04, [.bytes buf]⟩ = .ok (.ip4Dec buf)) ∧
  (∀ h, decode ⟨0x05, [.ipv4Header h]⟩ = .ok (.ip4Enc h)) ∧
  (∀ buf, decode ⟨0x06, [.bytes buf]⟩ = .ok (.tcpDec buf)) ∧
  (∀ seg, decode ⟨0x07, [.tcpSegment seg]⟩ = .ok (.tcpEnc seg)) ∧
  (∀ src dst seg, decode ⟨0x08, [.ipv4Addr src, .ipv4Addr dst, .bytes seg]⟩ = .ok (.tcpCsum src dst seg)) ∧
  (∀ src dst seg, decode ⟨0x09, [.ipv4Addr src, .ipv4Addr dst, .bytes seg]⟩ = .ok (.tcpSeal src dst seg)) ∧
  (∀ seg rip rport, decode ⟨0x10, [.tcpSegment seg, .ipv4Addr rip, .u16 rport]⟩ = .ok (.onSyn seg rip rport)) ∧
  (∀ seg, decode ⟨0x11, [.tcpSegment seg]⟩ = .ok (.onAck seg)) ∧
  (∀ seg sip, decode ⟨0x12, [.tcpSegment seg, .ipv4Addr sip]⟩ = .ok (.dispatch seg sip)) ∧
  (∀ frame, decode ⟨0x13, [.bytes frame]⟩ = .ok (.rxFrame frame)) ∧
  decode ⟨0x20, []⟩ = .ok .connRead

/-- R302 with R751: exactly the codes of its ranges decode as RESERVED, whatever the operands, and a step that issues
one returns ILLEGAL_COMMAND and writes nothing else; under FATAL it returns FATAL_ENTROPY. -/
def Obligations.ReservedCodesReturnIllegalCommand : Prop :=
  (∀ c : Command, decode c = .ok (.reserved c.code) ↔ Reserved c.code) ∧
  (∀ (s : State) (c : Command) (rest : List HostEvent), s.inputs = .command c :: rest → Reserved c.code →
    (s.fatal = false → step s = .next (answered { s with inputs := rest } .illegalCommand none)) ∧
    (s.fatal = true → step s = .next (answered { s with inputs := rest } .fatalEntropy none)))

/-- A few opcode-table words written out from opcode_table.json. -/
def Obligations.TableWordsDecode : Prop :=
  decodeTableWord 8 0b00000001 = some (.csum []) ∧
  decodeTableWord 8 0b00000010 = some (.ethDec []) ∧
  decodeTableWord 8 0b00000110 = some (.tcpDec []) ∧
  decodeTableWord 8 0b00010011 = some (.rxFrame []) ∧
  decodeTableWord 8 0b00100000 = some .connRead ∧
  decodeTableWord 8 0b11111111 = some (.reserved 0xFF)

/-- Decode and encode agree in both directions: a well-formed command decodes from its transaction, and whatever
decodes is well formed and has no other transaction (for a reserved code: no other code). -/
def Obligations.DecodeAndEncodeAgree : Prop :=
  (∀ i : Instr, i.wf = true → decode (encode i) = .ok i) ∧
  (∀ (c : Command) (i : Instr), decode c = .ok i →
    i.wf = true ∧ (encode i).code = c.code ∧ (¬ Reserved c.code → encode i = c))

/-- A transaction whose operands are not those R301 fixes has no meaning (assumption log 1, the model's choice):
refused by name while FATAL is 0, answered like every command while FATAL is 1. -/
def Obligations.WrongOperandsAreRejected : Prop :=
  ∀ (s : State) (c : Command) (rest : List HostEvent) (op : Op), s.inputs = .command c :: rest →
    decode c = .error (.operandTypes op) →
    (s.fatal = false → step s = .refused (.operandTypes op)) ∧
    (s.fatal = true → step s = .next (answered { s with inputs := rest } .fatalEntropy none))

/-! ### The step -/

/-- A step whose next input is a command that decodes is the meaning of the decoded command, in the state without
that input. -/
def Obligations.StepRunsTheDecodedCommand : Prop :=
  ∀ (s : State) (c : Command) (rest : List HostEvent) (i : Instr), s.inputs = .command c :: rest →
    decode c = .ok i → step s = exec i { s with inputs := rest }

/-- With nothing issued the block holds its state (R820; that the step idles then is assumption log 2). -/
def Obligations.IdleStepHoldsTheState : Prop :=
  ∀ s : State, s.inputs = [] → step s = .next s

/-- R900 with R120, for every value of the parameters and from every state: what reset leaves. P_LOCAL_IP and
P_LOCAL_PORT are sampled at the values they have then, and the other parameters stay. -/
def Obligations.ResetLeavesTheResetValues : Prop :=
  (∀ p : Params, (State.resetWith p).conn =
      ⟨.listen, p.localIP, p.localPort, .unwritten, .unwritten, .unwritten, .unwritten, .unwritten⟩ ∧
    (State.resetWith p).fatal = false ∧ (State.resetWith p).cfg = p) ∧
  (∀ (s : State) (ip : IPv4Addr) (port : U16) (rest : List HostEvent), s.inputs = .reset ip port :: rest →
    ∃ t, step s = .next t ∧
      t.conn = ⟨.listen, ip, port, .unwritten, .unwritten, .unwritten, .unwritten, .unwritten⟩ ∧
      t.fatal = false ∧ t.cfg = { s.cfg with localIP := ip, localPort := port })

/-- R902: only a reset leads back to LISTEN or clears FATAL. -/
def Obligations.OnlyResetReturnsToListen : Prop :=
  ∀ s t : State, step s = .next t →
    (s.conn.state ≠ .listen → t.conn.state = .listen → s.resetNext) ∧
    (s.fatal = true → t.fatal = false → s.resetNext)

/-- The frame of a step around the block: the parameters stay, but for the two a reset samples (R12, R900), one host
event is used up (R211, R213), and at most one draw is made (R654). The stream and the entropy fields are the model's form (assumption log 2, 6). -/
def Obligations.StepUsesOneEventAndAtMostOneDraw : Prop :=
  ∀ s t : State, step s = .next t →
    (¬ s.resetNext → t.cfg = s.cfg) ∧
    (∃ ip port, t.cfg = { s.cfg with localIP := ip, localPort := port }) ∧ t.inputs = s.inputs.tail ∧
    ((t.entropy = s.entropy ∧ t.draws = s.draws) ∨ (t.entropy = s.entropy.tail ∧ t.draws = s.draws + 1))

/-! ### FATAL and the statuses -/

/-- R812: under FATAL = 1 every command, reserved codes and CONN_READ included, returns FATAL_ENTROPY with no result,
writes nothing and draws nothing; only reset clears FATAL. -/
def Obligations.FatalAnswersEveryCommand : Prop :=
  (∀ i : Instr, FatalFirst i) ∧
  (∀ (s : State) (c : Command) (rest : List HostEvent), s.fatal = true → s.inputs = .command c :: rest →
    step s = .next (answered { s with inputs := rest } .fatalEntropy none)) ∧
  (∀ s t : State, s.fatal = true → step s = .next t → t.fatal = false → s.resetNext) ∧
  (∀ (s : State) ip port rest, s.inputs = .reset ip port :: rest → ∃ t, step s = .next t ∧ t.fatal = false)

/-- R803: FATAL becomes 1 exactly by a failed draw of ON_SYN in LISTEN, reached directly or by DISPATCH or RX_FRAME,
and then no connection register is written. -/
def Obligations.FatalComesFromAFailedDraw : Prop :=
  (∀ (i : Instr) (s t : State), exec i s = .next t → s.fatal = false → t.fatal = true →
    reachesOnSyn i = true ∧ s.conn.state = .listen ∧ entropyAnswer s = none ∧ t = answered (drawFailed s) .fatalEntropy none) ∧
  (∀ (s : State) seg rip rport, s.fatal = false → s.conn.state = .listen → entropyAnswer s = none →
    ∃ t, exec (.onSyn seg rip rport) s = .next t ∧ t.fatal = true ∧ t.response = some ⟨.fatalEntropy, none⟩)

/-- The status codes of R330. -/
def Obligations.StatusCodesAreTheSpecs : Prop :=
  statusCode .ok = 0x00 ∧ statusCode .formatError = 0x01 ∧ statusCode .protocolMismatch = 0x02 ∧
  statusCode .droppedPort = 0x03 ∧ statusCode .unhandledFlags = 0x04 ∧ statusCode .illegalCommand = 0x05 ∧
  statusCode .fatalEntropy = 0xFF ∧
  (∀ st : Status, ¬ (0x06 ≤ (statusCode st).toNat ∧ (statusCode st).toNat ≤ 0xFE))

/-- A command that ends with a status other than OK has written no connection register, and FATAL changes only with
FATAL_ENTROPY (R17, R813). -/
def Obligations.NonOkCommandsWriteNoRegister : Prop :=
  ∀ (i : Instr) (s t : State), exec i s = .next t →
    ∃ st r, t.response = some ⟨st, r⟩ ∧
      (st ≠ .ok → t.conn = s.conn ∧ r = none) ∧ (st ≠ .fatalEntropy → t.fatal = s.fatal)

/-- R210 with R807: a command with a byte-buffer operand over P_MAX_BUF is refused, TCP_CSUM and TCP_SEAL also over
65535 bytes; RX_FRAME is refused under any link type but ETHERNET, whatever the length of its frame. -/
def Obligations.RefusedCommandsHaveNoStep : Prop :=
  (∀ buf, RefusesTooLong (.csum buf) buf.length) ∧
  (∀ buf, RefusesTooLong (.ethDec buf) buf.length) ∧
  (∀ buf, RefusesTooLong (.ip4Dec buf) buf.length) ∧
  (∀ buf, RefusesTooLong (.tcpDec buf) buf.length) ∧
  (∀ src dst seg, RefusesTooLong (.tcpCsum src dst seg) seg.length) ∧
  (∀ src dst seg, RefusesTooLong (.tcpSeal src dst seg) seg.length) ∧
  (∀ src dst seg s, s.fatal = false → 65535 < seg.length →
    exec (.tcpCsum src dst seg) s = .refused .oversize ∧ exec (.tcpSeal src dst seg) s = .refused .oversize) ∧
  (∀ frame s, s.fatal = false → s.cfg.linkType = .ethernet → TooLong s frame.length →
    exec (.rxFrame frame) s = .refused .oversize) ∧
  (∀ frame s n, s.fatal = false → s.cfg.linkType = .other n → exec (.rxFrame frame) s = .refused .linkType)

/-- No other command is refused: a refusal is R807's, and never under FATAL (R811). -/
def Obligations.OnlyTheSpecsRefusalsHappen : Prop :=
  ∀ (i : Instr) (s : State) (r : Refusal), exec i s = .refused r → s.fatal = false ∧
    ((r = .linkType ∧ ∃ frame, i = .rxFrame frame ∧ s.cfg.linkType ≠ .ethernet) ∨
      (r = .oversize ∧ ∃ n, operandLength i = some n ∧ (TooLong s n ∨ (sumsSegment i = true ∧ 65535 < n))))

/-! ### The memory primitives and the checksum engine -/

/-- R203: MemRead is the big-endian number of its bytes. -/
def Obligations.MemReadIsBigEndian : Prop :=
  ∀ (buf : Buffer) (off : Nat),
    (off + 1 ≤ buf.length → (byteAt buf off).toNat = ((buf.getD off 0).toNat)) ∧
    (off + 2 ≤ buf.length →
      (memRead16 buf off).toNat = (buf.getD off 0).toNat * 2 ^ 8 + (buf.getD (off + 1) 0).toNat) ∧
    (off + 4 ≤ buf.length →
      (memRead32 buf off).toNat = (buf.getD off 0).toNat * 2 ^ 24 + (buf.getD (off + 1) 0).toNat * 2 ^ 16 +
        (buf.getD (off + 2) 0).toNat * 2 ^ 8 + (buf.getD (off + 3) 0).toNat)

/-- R204: MemWrite puts the big-endian bytes of the value at off and leaves every other byte, and the length, as they
were; byte sequences are read and written in index order. -/
def Obligations.MemWriteWritesOnlyItsBytes : Prop :=
  ∀ (buf : Buffer) (off : Nat),
    (∀ v, off + 1 ≤ buf.length → (memWrite8 buf off v).length = buf.length ∧
      (∀ k, (memWrite8 buf off v).getD k 0 = if k = off then v else buf.getD k 0)) ∧
    (∀ v, off + 2 ≤ buf.length → (memWrite16 buf off v).length = buf.length ∧
      (∀ k, (memWrite16 buf off v).getD k 0 =
        if k = off then hi v else if k = off + 1 then lo v else buf.getD k 0)) ∧
    (∀ v, off + 4 ≤ buf.length → (memWrite32 buf off v).length = buf.length ∧
      (∀ k, (memWrite32 buf off v).getD k 0 =
        if off ≤ k ∧ k < off + 4 then (bytes32 v).getD (k - off) 0 else buf.getD k 0)) ∧
    (∀ a, off + 4 ≤ buf.length → (writeAddr buf off a).length = buf.length ∧
      (∀ k, (writeAddr buf off a).getD k 0 =
        if off ≤ k ∧ k < off + 4 then (addr4 a).getD (k - off) 0 else buf.getD k 0)) ∧
    (off + 4 ≤ buf.length → addr4 (addrAt buf off) = (buf.drop off).take 4) ∧
    (off + 6 ≤ buf.length → macBytes (macAt buf off) = (buf.drop off).take 6)

/-- R400: CSUM, whole, against the pseudocode's loop over words in number arithmetic. -/
def Obligations.CsumComputesTheChecksum : Prop :=
  ∀ buf, decode ⟨0x01, [.bytes buf]⟩ = .ok (.csum buf) ∧ FatalFirst (.csum buf) ∧ RefusesTooLong (.csum buf) buf.length ∧
    (∀ s, s.fatal = false → Admits s buf.length →
      exec (.csum buf) s = .next (answered s .ok (some (.u16 (checksumOf buf)))))

/-- R403: accumulating in a wide register and folding at the end until the value fits gives the same checksum. -/
def Obligations.WideAccumulatorGivesTheSameChecksum : Prop :=
  ∀ buf s n, s.fatal = false → Admits s buf.length → (foldOnce^[n] (wideSum buf)) < 0x10000 →
    exec (.csum buf) s = .next
      (answered s .ok (some (.u16 (BitVec.ofNat 16 (foldOnce^[n] (wideSum buf)) ^^^ 0xFFFF))))

/-- R404: CSUM answers 0xFFFF exactly when every word of the padded buffer is 0, that is, every byte is 0. -/
def Obligations.CsumIsAllOnesOnlyForZeroBuffers : Prop :=
  ∀ buf s, s.fatal = false → Admits s buf.length →
    ∃ c, exec (.csum buf) s = .next (answered s .ok (some (.u16 c))) ∧ (c = 0xFFFF ↔ ∀ b ∈ buf, b = 0)

/-- R405: a buffer of even length with its checksum appended as two big-endian bytes has checksum 0. -/
def Obligations.CsumVerifiesItself : Prop :=
  ∀ buf c s, s.fatal = false → Admits s (buf.length + 2) → buf.length % 2 = 0 →
    exec (.csum buf) s = .next (answered s .ok (some (.u16 c))) →
    exec (.csum (buf ++ [hi c, lo c])) s = .next (answered s .ok (some (.u16 0)))

/-! ### The codecs -/

/-- R450: ETH_DEC, whole. -/
def Obligations.EthDecReadsTheHeader : Prop :=
  (∀ buf, decode ⟨0x02, [.bytes buf]⟩ = .ok (.ethDec buf) ∧ FatalFirst (.ethDec buf) ∧ RefusesTooLong (.ethDec buf) buf.length ∧
    (∀ s, s.fatal = false → Admits s buf.length → buf.length < 14 →
      exec (.ethDec buf) s = .next (answered s .formatError none))) ∧
  (∀ (b0 b1 b2 b3 b4 b5 b6 b7 b8 b9 b10 b11 b12 b13 : Byte) (rest : Buffer) (s : State), s.fatal = false →
    Admits s (14 + rest.length) →
    exec (.ethDec ([b0, b1, b2, b3, b4, b5, b6, b7, b8, b9, b10, b11, b12, b13] ++ rest)) s =
      .next (answered s .ok (some (.ethernetFrame
        { dst := ⟨b0, b1, b2, b3, b4, b5⟩, src := ⟨b6, b7, b8, b9, b10, b11⟩, etherType := be16 b12 b13 }))))

/-- R451: ETH_ENC, whole. -/
def Obligations.EthEncWritesTheHeader : Prop :=
  ∀ f, decode ⟨0x03, [.ethernetFrame f]⟩ = .ok (.ethEnc f) ∧ FatalFirst (.ethEnc f) ∧
    (∀ s, s.fatal = false → exec (.ethEnc f) s = .next (answered s .ok (some (.bytes (ethBytes f)))))

/-- R452: the Ethernet round trips, both ways, for every record and every buffer of at least 14 bytes. -/
def Obligations.EthRoundTrips : Prop :=
  ∀ s, s.fatal = false →
    (∀ f out, exec (.ethEnc f) s = .next (answered s .ok (some (.bytes out))) → Admits s 14 →
      exec (.ethDec out) s = .next (answered s .ok (some (.ethernetFrame f)))) ∧
    (∀ buf f, exec (.ethDec buf) s = .next (answered s .ok (some (.ethernetFrame f))) →
      exec (.ethEnc f) s = .next (answered s .ok (some (.bytes (buf.take 14)))))

/-- R500: IP4_DEC, whole. -/
def Obligations.Ip4DecReadsTheHeader : Prop :=
  (∀ buf, decode ⟨0x04, [.bytes buf]⟩ = .ok (.ip4Dec buf) ∧ FatalFirst (.ip4Dec buf) ∧ RefusesTooLong (.ip4Dec buf) buf.length ∧
    (∀ s, s.fatal = false → Admits s buf.length → buf.length < 20 →
      exec (.ip4Dec buf) s = .next (answered s .formatError none))) ∧
  (∀ (b0 b1 b2 b3 b4 b5 b6 b7 b8 b9 b10 b11 b12 b13 b14 b15 b16 b17 b18 b19 : Byte) (rest : Buffer) (s : State),
    s.fatal = false → Admits s (20 + rest.length) →
    exec (.ip4Dec ([b0, b1, b2, b3, b4, b5, b6, b7, b8, b9, b10, b11, b12, b13, b14, b15, b16, b17, b18, b19] ++
        rest)) s =
      .next (answered s .ok (some (.ipv4Header
        { version := BitVec.ofNat 4 (b0.toNat / 16), ihl := BitVec.ofNat 4 (b0.toNat % 16), tos := b1
          totalLen := be16 b2 b3, id := be16 b4 b5
          flags := BitVec.ofNat 3 (b6.toNat / 32), fragOff := BitVec.ofNat 13 (b6.toNat % 32 * 256 + b7.toNat)
          ttl := b8, protocol := b9, checksum := be16 b10 b11
          src := ⟨b12, b13, b14, b15⟩, dst := ⟨b16, b17, b18, b19⟩ }))))

/-- R501: IP4_ENC, whole: every field as given, no checksum computed. -/
def Obligations.Ip4EncWritesTheHeader : Prop :=
  ∀ h, decode ⟨0x05, [.ipv4Header h]⟩ = .ok (.ip4Enc h) ∧ FatalFirst (.ip4Enc h) ∧
    (∀ s, s.fatal = false → exec (.ip4Enc h) s = .next (answered s .ok (some (.bytes (ip4Bytes h)))))

/-- R502: the IPv4 round trips, both ways, whatever the IHL. -/
def Obligations.Ip4RoundTrips : Prop :=
  ∀ s, s.fatal = false →
    (∀ h out, exec (.ip4Enc h) s = .next (answered s .ok (some (.bytes out))) → Admits s 20 →
      exec (.ip4Dec out) s = .next (answered s .ok (some (.ipv4Header h)))) ∧
    (∀ buf h, exec (.ip4Dec buf) s = .next (answered s .ok (some (.ipv4Header h))) →
      exec (.ip4Enc h) s = .next (answered s .ok (some (.bytes (buf.take 20)))))

/-- R550: TCP_DEC, whole. Bits 3..1 of byte 12 and bytes 16 to 19 do not matter. -/
def Obligations.TcpDecReadsTheHeader : Prop :=
  (∀ buf, decode ⟨0x06, [.bytes buf]⟩ = .ok (.tcpDec buf) ∧ FatalFirst (.tcpDec buf) ∧ RefusesTooLong (.tcpDec buf) buf.length ∧
    (∀ s, s.fatal = false → Admits s buf.length → buf.length < 20 →
      exec (.tcpDec buf) s = .next (answered s .formatError none))) ∧
  (∀ (b0 b1 b2 b3 b4 b5 b6 b7 b8 b9 b10 b11 b12 b13 b14 b15 b16 b17 b18 b19 : Byte) (rest : Buffer) (s : State),
    s.fatal = false → Admits s (20 + rest.length) →
    exec (.tcpDec ([b0, b1, b2, b3, b4, b5, b6, b7, b8, b9, b10, b11, b12, b13, b14, b15, b16, b17, b18, b19] ++
        rest)) s =
      .next (answered s .ok (some (.tcpSegment
        (segmentOf b0 b1 b2 b3 b4 b5 b6 b7 b8 b9 b10 b11 b12 b13 b14 b15)))))

/-- R551: TCP_ENC, whole. -/
def Obligations.TcpEncWritesTheHeader : Prop :=
  ∀ seg, decode ⟨0x07, [.tcpSegment seg]⟩ = .ok (.tcpEnc seg) ∧ FatalFirst (.tcpEnc seg) ∧
    (∀ s, s.fatal = false → exec (.tcpEnc seg) s = .next (answered s .ok (some (.bytes (tcpBytes seg 0)))))

/-- R552: the TCP record round trip. -/
def Obligations.TcpRecordRoundTrips : Prop :=
  ∀ s seg out, s.fatal = false → Admits s 20 → exec (.tcpEnc seg) s = .next (answered s .ok (some (.bytes out))) →
    exec (.tcpDec out) s = .next (answered s .ok (some (.tcpSegment seg)))

/-- R553: the TCP byte round trip holds exactly when the reserved bits and bytes 16 to 19 are 0. -/
def Obligations.TcpBytesRoundTripExactlyWhenUnpatched : Prop :=
  ∀ s buf seg, s.fatal = false → exec (.tcpDec buf) s = .next (answered s .ok (some (.tcpSegment seg))) →
    (exec (.tcpEnc seg) s = .next (answered s .ok (some (.bytes (buf.take 20)))) ↔
      (buf.getD 12 0).toNat / 2 % 8 = 0 ∧ buf.getD 16 0 = 0 ∧ buf.getD 17 0 = 0 ∧ buf.getD 18 0 = 0 ∧
        buf.getD 19 0 = 0)

/-! ### The pseudo-header checksum -/

/-- R600 with R601: TCP_CSUM, whole. -/
def Obligations.TcpCsumCoversThePseudoHeader : Prop :=
  ∀ src dst seg, decode ⟨0x08, [.ipv4Addr src, .ipv4Addr dst, .bytes seg]⟩ = .ok (.tcpCsum src dst seg) ∧
    FatalFirst (.tcpCsum src dst seg) ∧ RefusesTooLong (.tcpCsum src dst seg) seg.length ∧
    (∀ s, s.fatal = false → 65535 < seg.length → exec (.tcpCsum src dst seg) s = .refused .oversize) ∧
    (∀ s, s.fatal = false → Admits s seg.length → seg.length ≤ 65535 →
      exec (.tcpCsum src dst seg) s =
        .next (answered s .ok (some (.u16 (checksumOf (pseudoOf src dst seg.length ++ seg))))))

/-- R602: TCP_SEAL, whole: bytes 16-17 are the checksum of the segment with them zero, every other byte is kept. -/
def Obligations.TcpSealPatchesTheChecksum : Prop :=
  ∀ src dst seg, decode ⟨0x09, [.ipv4Addr src, .ipv4Addr dst, .bytes seg]⟩ = .ok (.tcpSeal src dst seg) ∧
    FatalFirst (.tcpSeal src dst seg) ∧ RefusesTooLong (.tcpSeal src dst seg) seg.length ∧
    (∀ s, s.fatal = false → 65535 < seg.length → exec (.tcpSeal src dst seg) s = .refused .oversize) ∧
    (∀ s, s.fatal = false → Admits s seg.length → seg.length ≤ 65535 → seg.length < 20 →
      exec (.tcpSeal src dst seg) s = .next (answered s .formatError none)) ∧
    (∀ s, s.fatal = false → Admits s seg.length → seg.length ≤ 65535 → 20 ≤ seg.length →
      exec (.tcpSeal src dst seg) s = .next (answered s .ok (some (.bytes
        (withField seg (hi (sealValue src dst seg)) (lo (sealValue src dst seg)))))))

/-- R603: a sealed segment verifies, of odd length too. -/
def Obligations.SealedSegmentsVerify : Prop :=
  ∀ src dst seg out s, s.fatal = false →
    exec (.tcpSeal src dst seg) s = .next (answered s .ok (some (.bytes out))) →
    exec (.tcpCsum src dst out) s = .next (answered s .ok (some (.u16 0)))

/-- TCP_CSUM never answers 0xFFFF, and swapping the two addresses does not change its answer (R600's corner case, V25). -/
def Obligations.TcpCsumIsNeverAllOnes : Prop :=
  ∀ src dst seg s, s.fatal = false → Admits s seg.length → seg.length ≤ 65535 →
    ∃ c, exec (.tcpCsum src dst seg) s = .next (answered s .ok (some (.u16 c))) ∧ c ≠ 0xFFFF ∧
      exec (.tcpCsum dst src seg) s = .next (answered s .ok (some (.u16 c)))

/-! ### The connection state machine -/

/-- R651 with R654 and R655: ON_SYN, whole. The frame is in the equations: what they do not write is as before. -/
def Obligations.OnSynOpensTheConnection : Prop :=
  ∀ seg rip rport, decode ⟨0x10, [.tcpSegment seg, .ipv4Addr rip, .u16 rport]⟩ = .ok (.onSyn seg rip rport) ∧
    FatalFirst (.onSyn seg rip rport) ∧
    (∀ s, s.fatal = false → s.conn.state ≠ .listen →
      exec (.onSyn seg rip rport) s = .next (answered s .protocolMismatch none)) ∧
    (∀ s, s.fatal = false → s.conn.state = .listen → entropyAnswer s = none →
      exec (.onSyn seg rip rport) s = .next (answered (drawFailed s) .fatalEntropy none)) ∧
    (∀ s isn, s.fatal = false → s.conn.state = .listen → entropyAnswer s = some isn →
      exec (.onSyn seg rip rport) s =
        .next (answered (synAccepted s seg.seqNum rip rport isn) .ok
          (some (.tcpSegment (synAck s rport isn (seg.seqNum + 1))))))

/-- R652 with R655: ON_ACK, whole. -/
def Obligations.OnAckEstablishesTheConnection : Prop :=
  ∀ seg, decode ⟨0x11, [.tcpSegment seg]⟩ = .ok (.onAck seg) ∧ FatalFirst (.onAck seg) ∧
    (∀ s, s.fatal = false → s.conn.state ≠ .synReceived →
      exec (.onAck seg) s = .next (answered s .protocolMismatch none)) ∧
    (∀ s q, s.fatal = false → s.conn.state = .synReceived → s.conn.sendSeq = .written q → seg.ackNum ≠ q + 1 →
      exec (.onAck seg) s = .next (answered s .protocolMismatch none)) ∧
    (∀ s q, s.fatal = false → s.conn.state = .synReceived → s.conn.sendSeq = .written q → seg.ackNum = q + 1 →
      exec (.onAck seg) s = .next (answered (ackAccepted s q) .ok none))

/-- R118: ON_ACK, which needs conn.sendSeq in SYN_RECEIVED, faults where the register holds UNWRITTEN; no run from reset
gets there. -/
def Obligations.OnAckFaultsOnUnwrittenSendSeq : Prop :=
  ∀ s seg, s.fatal = false → s.conn.state = .synReceived → s.conn.sendSeq = .unwritten →
    exec (.onAck seg) s = .fault (.unwrittenRead .sendSeq)

/-- R653: in a declared but unimplemented state both handlers return PROTOCOL_MISMATCH and change nothing; no command
enters such a state, and no command leaves ESTABLISHED or one of them. -/
def Obligations.UnimplementedStatesHaveNoTransitions : Prop :=
  (∀ s, s.fatal = false → s.conn.state ∈ unimplemented →
    (∀ seg rip rport, exec (.onSyn seg rip rport) s = .next (answered s .protocolMismatch none)) ∧
    (∀ seg, exec (.onAck seg) s = .next (answered s .protocolMismatch none))) ∧
  (∀ i s t, exec i s = .next t → t.conn.state ∈ unimplemented → s.conn.state = t.conn.state) ∧
  (∀ i s t, exec i s = .next t → s.conn.state ∈ .established :: unimplemented → t.conn = s.conn)

/-- R656: the handshake properties (a) to (d), for every number of wrong acknowledgments in between. -/
def Obligations.HandshakeRunsToEstablished : Prop :=
  ∀ (s : State) (syn : TCPSegment) (rip : IPv4Addr) (rport : U16) (isn : U32), s.fatal = false →
    s.conn.state = .listen → entropyAnswer s = some isn →
    ∃ t r, exec (.onSyn syn rip rport) s = .next t ∧ t.response = some ⟨.ok, some (.tcpSegment r)⟩ ∧
      t.conn.state = .synReceived ∧ r.flags = 0x012 ∧ r.ackNum = syn.seqNum + 1 ∧
      (∀ (wrong : List TCPSegment) (ack : TCPSegment), (∀ w ∈ wrong, w.ackNum ≠ r.seqNum + 1) →
        ack.ackNum = r.seqNum + 1 →
        ∃ u v, wrong.foldl (fun o w => match o with
              | some x => (match exec (.onAck w) x with | .next y => some y | _ => none)
              | none => none) (some t) = some u ∧
          u.conn = t.conn ∧ exec (.onAck ack) u = .next v ∧ v.conn.state = .established ∧
          v.response = some ⟨.ok, none⟩ ∧
          (∀ again rip' rport', exec (.onSyn again rip' rport') v = .next (answered v .protocolMismatch none)))

/-- Of its segment ON_SYN reads only seqNum and ON_ACK only ackNum (corner cases of R651 and R652). -/
def Obligations.HandlersReadOneSegmentField : Prop :=
  (∀ s a b rip rport, a.seqNum = b.seqNum → exec (.onSyn a rip rport) s = exec (.onSyn b rip rport) s) ∧
  (∀ s a b, a.ackNum = b.ackNum → exec (.onAck a) s = exec (.onAck b) s)

/-! ### Dispatch and the frame pipeline -/

/-- R700: DISPATCH, whole: the port, then SYN, then ACK, then UNHANDLED_FLAGS. -/
def Obligations.DispatchSelectsTheHandler : Prop :=
  ∀ seg sip, decode ⟨0x12, [.tcpSegment seg, .ipv4Addr sip]⟩ = .ok (.dispatch seg sip) ∧
    FatalFirst (.dispatch seg sip) ∧
    (∀ s, s.fatal = false → seg.dstPort ≠ s.conn.localPort →
      exec (.dispatch seg sip) s = .next (answered s .droppedPort none)) ∧
    (∀ s, s.fatal = false → seg.dstPort = s.conn.localPort → seg.flags.getLsbD 1 = true →
      exec (.dispatch seg sip) s = exec (.onSyn seg sip seg.srcPort) s) ∧
    (∀ s, s.fatal = false → seg.dstPort = s.conn.localPort → seg.flags.getLsbD 1 = false →
      seg.flags.getLsbD 4 = true → exec (.dispatch seg sip) s = exec (.onAck seg) s) ∧
    (∀ s, s.fatal = false → seg.dstPort = s.conn.localPort → seg.flags.getLsbD 1 = false →
      seg.flags.getLsbD 4 = false → exec (.dispatch seg sip) s = .next (answered s .unhandledFlags none))

/-- DISPATCH completes: a SYN to the local port opens the connection to its sender, and the right ACK establishes it. -/
def Obligations.DispatchCompletesTheHandshake : Prop :=
  (∀ s seg sip isn, s.fatal = false → s.conn.state = .listen → entropyAnswer s = some isn →
    seg.dstPort = s.conn.localPort → seg.flags.getLsbD 1 = true →
    exec (.dispatch seg sip) s =
      .next (answered (synAccepted s seg.seqNum sip seg.srcPort isn) .ok
        (some (.tcpSegment (synAck s seg.srcPort isn (seg.seqNum + 1)))))) ∧
  (∀ s seg sip q, s.fatal = false → s.conn.state = .synReceived → s.conn.sendSeq = .written q →
    seg.dstPort = s.conn.localPort → seg.flags.getLsbD 1 = false → seg.flags.getLsbD 4 = true →
    seg.ackNum = q + 1 →
    exec (.dispatch seg sip) s = .next (answered (ackAccepted s q) .ok none))

/-- R701 with R703: RX_FRAME, whole. A frame that parses is DISPATCH of its TCP header from its IPv4 source (R207),
its response segment turned into the frame of R703. EtherType, version, protocol, destination and total length play
no part. -/
def Obligations.RxFrameRunsDispatch : Prop :=
  ∀ frame, decode ⟨0x13, [.bytes frame]⟩ = .ok (.rxFrame frame) ∧ FatalFirst (.rxFrame frame) ∧
    (∀ s n, s.fatal = false → s.cfg.linkType = .other n → exec (.rxFrame frame) s = .refused .linkType) ∧
    (∀ s, s.fatal = false → s.cfg.linkType = .ethernet → TooLong s frame.length →
      exec (.rxFrame frame) s = .refused .oversize) ∧
    (∀ s, s.fatal = false → s.cfg.linkType = .ethernet → Admits s frame.length → ¬ Parses frame →
      exec (.rxFrame frame) s = .next (answered s .formatError none)) ∧
    (∀ s, s.fatal = false → s.cfg.linkType = .ethernet → Admits s frame.length → Parses frame →
      (∀ f, exec (.dispatch (frameSegment frame) (frameSource frame)) s = .fault f →
        exec (.rxFrame frame) s = .fault f) ∧
      (∀ t st, exec (.dispatch (frameSegment frame) (frameSource frame)) s = .next t →
        t.response = some ⟨st, none⟩ → exec (.rxFrame frame) s = .next t) ∧
      (∀ t st r, exec (.dispatch (frameSegment frame) (frameSource frame)) s = .next t →
        t.response = some ⟨st, some (.tcpSegment r)⟩ →
        exec (.rxFrame frame) s = .next (answered t .ok (some (.bytes
          (replyBytes s.cfg s.conn.localIP (frameSource frame) frame r))))))

/-- RX_FRAME completes: a SYN to the local port in LISTEN opens the connection and is answered by the frame of R703,
byte for byte. -/
def Obligations.RxFrameAnswersASyn : Prop :=
  ∀ s frame isn, s.fatal = false → s.cfg.linkType = .ethernet → Admits s frame.length → Parses frame →
    s.conn.state = .listen → entropyAnswer s = some isn → (frameSegment frame).dstPort = s.conn.localPort →
    (frameSegment frame).flags.getLsbD 1 = true →
    exec (.rxFrame frame) s =
      .next (answered
        (synAccepted s (frameSegment frame).seqNum (frameSource frame) (frameSegment frame).srcPort isn) .ok
        (some (.bytes (replyBytes s.cfg s.conn.localIP (frameSource frame) frame
          (synAck s (frameSegment frame).srcPort isn ((frameSegment frame).seqNum + 1))))))

/-- Every frame RX_FRAME returns has 54 bytes, an IPv4 header and a TCP segment that both verify, and version 4, IHL 5,
total length 40, protocol 6 (R703, R604). -/
def Obligations.RepliesVerify : Prop :=
  ∀ s t frame out, exec (.rxFrame frame) s = .next t → t.response = some ⟨.ok, some (.bytes out)⟩ →
    out.length = 54 ∧ checksumOf ((out.drop 14).take 20) = 0 ∧
    checksumOf (pseudoOf t.conn.localIP (frameSource frame) 20 ++ out.drop 34) = 0 ∧
    t.conn.remoteIP = .written (frameSource frame) ∧
    out.getD 14 0 = 0x45 ∧ out.getD 16 0 = 0 ∧ out.getD 17 0 = 40 ∧ out.getD 23 0 = 6

/-- R704: RX_FRAME returns bytes only when ON_SYN succeeded, that is, when LISTEN became SYN_RECEIVED with status OK. -/
def Obligations.OnlyAnAcceptedSynIsAnswered : Prop :=
  ∀ s t frame st v, exec (.rxFrame frame) s = .next t → t.response = some ⟨st, some v⟩ →
    st = .ok ∧ s.conn.state = .listen ∧ t.conn.state = .synReceived ∧ (∃ out, v = .bytes out) ∧
    (frameSegment frame).flags.getLsbD 1 = true ∧ (frameSegment frame).dstPort = s.conn.localPort

/-- Bytes after the TCP header of a frame are ignored (R208, corner case of R701). -/
def Obligations.RxFrameIgnoresTrailingBytes : Prop :=
  ∀ s frame pad, Admits s (frame.length + pad.length) → Parses frame →
    exec (.rxFrame (frame ++ pad)) s = exec (.rxFrame frame) s

/-! ### The system commands -/

/-- R750: CONN_READ, whole: a snapshot with the UNWRITTEN markers, the state as its code of R113. -/
def Obligations.ConnReadReturnsTheSnapshot : Prop :=
  decode ⟨0x20, []⟩ = .ok .connRead ∧ FatalFirst .connRead ∧
  (∀ s, s.fatal = false →
    ∃ code, exec .connRead s = .next (answered s .ok (some (.connView
        { state := code, localIP := s.conn.localIP, localPort := s.conn.localPort, remoteIP := s.conn.remoteIP
          remotePort := s.conn.remotePort, sendSeq := s.conn.sendSeq, recvNext := s.conn.recvNext
          lastAckSent := s.conn.lastAckSent }))) ∧
      [ConnState.listen, .synReceived, .established, .finWait1, .finWait2, .closeWait, .closing, .lastAck, .closed,
        .synSent, .timeWait][code.toNat]? = some s.conn.state)

/-- R751: a reserved code, whole. -/
def Obligations.ReservedReturnsIllegalCommand : Prop :=
  ∀ code, (Reserved code → ∀ operands, decode ⟨code, operands⟩ = .ok (.reserved code)) ∧ FatalFirst (.reserved code) ∧
    (∀ s, s.fatal = false → exec (.reserved code) s = .next (answered s .illegalCommand none))

/-! ### The whole machine -/

/-- R212: the pure commands write no register, draw nothing, and read no register: their status and result are the
same in every state with the same FATAL bit and parameters. -/
def Obligations.PureCommandsOnlyAnswer : Prop :=
  ∀ i, IsPure i →
    (∀ s t, exec i s = .next t → ∃ st r, t = answered s st r) ∧
    (∀ s s' t, s'.fatal = s.fatal → s'.cfg = s.cfg → exec i s = .next t →
      ∃ t', exec i s' = .next t' ∧ t'.response = t.response)

/-- R112: only ON_SYN and ON_ACK write a connection register; DISPATCH writes what the handler it selects writes and
RX_FRAME what DISPATCH of a decoded segment writes; no command writes conn.localIP or conn.localPort. -/
def Obligations.OnlyHandlersWriteTheConnection : Prop :=
  ∀ i s t, exec i s = .next t →
    t.conn.localIP = s.conn.localIP ∧ t.conn.localPort = s.conn.localPort ∧
    ((∀ seg rip rport, i ≠ .onSyn seg rip rport) → (∀ seg, i ≠ .onAck seg) → (∀ seg sip, i ≠ .dispatch seg sip) →
      (∀ frame, i ≠ .rxFrame frame) → t.conn = s.conn) ∧
    (∀ seg sip, i = .dispatch seg sip → t.conn ≠ s.conn →
      exec (.onSyn seg sip seg.srcPort) s = .next t ∨ exec (.onAck seg) s = .next t) ∧
    (∀ frame, i = .rxFrame frame → t.conn ≠ s.conn →
      ∃ u, exec (.dispatch (frameSegment frame) (frameSource frame)) s = .next u ∧ u.conn = t.conn)

/-- The only changes of conn.state are LISTEN to SYN_RECEIVED, in which all five remote registers are written, and
SYN_RECEIVED to ESTABLISHED, in which only sendSeq changes, by +32 1; otherwise the Connection is unchanged (R8,
R651, R652). -/
def Obligations.OnlyHandshakeTransitions : Prop :=
  ∀ i s t, exec i s = .next t →
    t.conn = s.conn ∨
    (s.conn.state = .listen ∧ reachesOnSyn i = true ∧ ∃ rip rport isn rn, t.conn =
      ⟨.synReceived, s.conn.localIP, s.conn.localPort, .written rip, .written rport, .written isn, .written rn,
        .written rn⟩) ∨
    (s.conn.state = .synReceived ∧ ∃ q, s.conn.sendSeq = .written q ∧
      t.conn = { s.conn with state := .established, sendSeq := .written (q + 1) })

/-- The invariant holds after reset, for every value of the parameters R12 allows. -/
def Obligations.ResetSatisfiesTheInvariant : Prop :=
  (∀ p : Params, p.wf = true → (State.resetWith p).Inv) ∧ State.reset.Inv

/-- Every step keeps the invariant: only the three handshake states are held (R114), the local registers keep their
reset values (R112), UNWRITTEN and written registers go with the state (R115), FATAL is set in LISTEN only. -/
def Obligations.StepKeepsTheInvariant : Prop :=
  ∀ s t : State, s.Inv → step s = .next t → t.Inv

/-- R115: from a state of the invariant no step faults: no command reads a register while it is UNWRITTEN. -/
def Obligations.NoStepReadsAnUnwrittenRegister : Prop :=
  ∀ s : State, s.Inv → safeOutcome (step s)
end

