-- ==== Sys2Proof/Laws/Operands.lean ====
section
/-! SUPPORT. The laws of the memory primitives (20_memory.md R203, R204): what a read gives as a number, what a write
changes and what it leaves. -/

namespace Sys2Proof.Machine

/-- A big-endian pair of bytes as a number (R203). -/
theorem toNat_append8 (a b : Byte) : (a ++ b : U16).toNat = a.toNat * 256 + b.toNat := by
  rw [BitVec.toNat_append, ← Nat.shiftLeft_add_eq_or_of_lt b.isLt, Nat.shiftLeft_eq]

/-- A big-endian pair of 16-bit values as a number (R203). -/
theorem toNat_append16 (a b : U16) : (a ++ b : U32).toNat = a.toNat * 65536 + b.toNat := by
  rw [BitVec.toNat_append, ← Nat.shiftLeft_add_eq_or_of_lt b.isLt, Nat.shiftLeft_eq]

theorem memRead16_toNat (buf : Buffer) (off : Nat) :
    (memRead16 buf off).toNat = (byteAt buf off).toNat * 256 + (byteAt buf (off + 1)).toNat :=
  toNat_append8 _ _

theorem memRead32_toNat (buf : Buffer) (off : Nat) :
    (memRead32 buf off).toNat = (memRead16 buf off).toNat * 65536 + (memRead16 buf (off + 2)).toNat :=
  toNat_append16 _ _

@[simp] theorem length_memWrite8 (buf : Buffer) (off : Nat) (v : Byte) :
    (memWrite8 buf off v).length = buf.length := by simp [memWrite8]

@[simp] theorem length_memWrite16 (buf : Buffer) (off : Nat) (v : U16) :
    (memWrite16 buf off v).length = buf.length := by simp [memWrite16]

@[simp] theorem length_memWrite32 (buf : Buffer) (off : Nat) (v : U32) :
    (memWrite32 buf off v).length = buf.length := by simp [memWrite32]

/-- Reading a byte after writing one: the written byte, or what was there. -/
theorem byteAt_memWrite8 (buf : Buffer) (off k : Nat) (v : Byte) (h : off < buf.length) :
    byteAt (memWrite8 buf off v) k = if k = off then v else byteAt buf k := by
  unfold byteAt memWrite8
  by_cases hk : k = off
  · subst hk; simp [List.getD, h]
  · simp [List.getD, List.getElem?_set_ne (Ne.symm hk), hk]

/-- Reading a byte after a 16-bit write. -/
theorem byteAt_memWrite16 (buf : Buffer) (off k : Nat) (v : U16) (h : off + 1 < buf.length) :
    byteAt (memWrite16 buf off v) k =
      if k = off then v.extractLsb' 8 8 else if k = off + 1 then v.extractLsb' 0 8 else byteAt buf k := by
  unfold memWrite16
  rw [byteAt_memWrite8 _ _ _ _ (by simpa using h), byteAt_memWrite8 _ _ _ _ (by omega)]
  by_cases h1 : k = off
  · subst h1; simp
  · simp [h1]

/-- The two halves of a 16-bit value put it together again. -/
theorem append_halves16 (v : U16) : (v.extractLsb' 8 8 ++ v.extractLsb' 0 8 : U16) = v := by
  apply BitVec.eq_of_toNat_eq
  rw [toNat_append8]
  simp [BitVec.extractLsb'_toNat, Nat.shiftRight_eq_div_pow]
  omega

/-- The two halves of a 32-bit value put it together again. -/
theorem append_halves32 (v : U32) : (v.extractLsb' 16 16 ++ v.extractLsb' 0 16 : U32) = v := by
  apply BitVec.eq_of_toNat_eq
  rw [toNat_append16]
  simp [BitVec.extractLsb'_toNat, Nat.shiftRight_eq_div_pow]
  omega

/-- Read after write, 16 bits. -/
theorem memRead16_memWrite16 (buf : Buffer) (off : Nat) (v : U16) (h : off + 1 < buf.length) :
    memRead16 (memWrite16 buf off v) off = v := by
  unfold memRead16
  rw [byteAt_memWrite16 _ _ _ _ h, byteAt_memWrite16 _ _ _ _ h]
  simpa using append_halves16 v

@[simp] theorem length_zeros (n : Nat) : (zeros n).length = n := by simp [zeros]

@[simp] theorem length_writeAddr (buf : Buffer) (off : Nat) (a : IPv4Addr) :
    (writeAddr buf off a).length = buf.length := by simp [writeAddr]

/-- What the size bound says: no bound, or a bound the length does not exceed (R210). -/
theorem oversize_eq_false_iff (p : Params) (n : Nat) :
    oversize p n = false ↔ ∀ m, p.maxBuf = some m → n ≤ m := by
  unfold oversize
  cases p.maxBuf <;> simp

theorem oversizeSegment_eq_false_iff (p : Params) (n : Nat) :
    oversizeSegment p n = false ↔ (∀ m, p.maxBuf = some m → n ≤ m) ∧ n ≤ Config.maxSegment := by
  simp [oversizeSegment, oversize_eq_false_iff]

end Sys2Proof.Machine
end

