-- ==== Sys2Proof/Laws/Checksum.lean ====
section
/-! SUPPORT. The laws of one's-complement addition, proved from 41_checksum.md R401 as R406 asks, and the sum of a
buffer word by word. -/

namespace Sys2Proof.Machine

/-- What `+'` computes, as a number (R401): never more than 16 bits. -/
theorem ocAdd_toNat (a b : U16) :
    (ocAdd a b).toNat = (a.toNat + b.toNat) % 0x10000 + (a.toNat + b.toNat) / 0x10000 := by
  have ha := a.isLt
  have hb := b.isLt
  simp only [ocAdd, BitVec.toNat_ofNat]
  omega

theorem ocAdd_comm (a b : U16) : ocAdd a b = ocAdd b a := by
  simp [ocAdd, Nat.add_comm]

/-- The same with the carry as a case: one 0xFFFF less where the sum has 17 bits (R401). -/
theorem ocAdd_toNat_ite (a b : U16) :
    (ocAdd a b).toNat = if a.toNat + b.toNat < 65536 then a.toNat + b.toNat else a.toNat + b.toNat - 65535 := by
  have ha := a.isLt
  have hb := b.isLt
  rw [ocAdd_toNat]
  split <;> omega

theorem ocAdd_assoc (a b c : U16) : ocAdd (ocAdd a b) c = ocAdd a (ocAdd b c) := by
  have ha := a.isLt
  have hb := b.isLt
  have hc := c.isLt
  apply BitVec.eq_of_toNat_eq
  simp only [ocAdd_toNat_ite]
  split_ifs <;> omega

@[simp] theorem ocAdd_zero (a : U16) : ocAdd a 0#16 = a := by
  have ha := a.isLt
  apply BitVec.eq_of_toNat_eq
  simp [ocAdd_toNat]
  omega

@[simp] theorem zero_ocAdd (a : U16) : ocAdd 0#16 a = a := by rw [ocAdd_comm, ocAdd_zero]

/-- A sum is 0 only if both terms are (R404). -/
theorem ocAdd_eq_zero {a b : U16} : ocAdd a b = 0#16 ↔ a = 0#16 ∧ b = 0#16 := by
  have ha := a.isLt
  have hb := b.isLt
  constructor
  · intro h
    have := congrArg BitVec.toNat h
    rw [ocAdd_toNat] at this
    simp at this
    constructor <;> apply BitVec.eq_of_toNat_eq <;> simp <;> omega
  · rintro ⟨rfl, rfl⟩; rfl

/-- A value and its complement add to 0xFFFF (R405). -/
theorem ocAdd_compl (a : U16) : ocAdd a (~~~ a) = 0xFFFF := by
  have ha := a.isLt
  apply BitVec.eq_of_toNat_eq
  simp [ocAdd_toNat]
  omega

/-- The fold at the end has no effect (R403). -/
@[simp] theorem finalFold_eq (x : U16) : finalFold x = x := by
  have h1 : x &&& 0xFFFF#16 = x := by
    have : (0xFFFF#16 : U16) = BitVec.allOnes 16 := by decide
    rw [this, BitVec.and_allOnes]
  have h2 : x >>> 16 = 0 := by
    apply BitVec.eq_of_toNat_eq
    have := x.isLt
    simp [Nat.shiftRight_eq_div_pow]
    omega
  rw [finalFold, h1, h2]
  exact BitVec.add_zero x

/-- The words of a buffer of even length followed by another are its words followed by the other's. -/
theorem words_append : ∀ (a b : Buffer), a.length % 2 = 0 → words (a ++ b) = words a ++ words b
  | [], _, _ => rfl
  | [_], _, h => by simp at h
  | x :: y :: rest, b, h => by
    have ih := words_append rest b (by simp only [List.length_cons] at h; omega)
    simp [words, ih]

/-- A fold of `+'` can be started from 0. -/
theorem foldl_ocAdd (ws : List U16) (acc : U16) : ws.foldl ocAdd acc = ocAdd acc (ws.foldl ocAdd 0#16) := by
  induction ws generalizing acc with
  | nil => simp
  | cons w ws ih =>
    rw [List.foldl_cons, List.foldl_cons, ih, ih (ocAdd 0#16 w), zero_ocAdd, ocAdd_assoc]

/-- A buffer of even length is summed as it stands. -/
theorem onesSum_of_even {a : Buffer} (h : a.length % 2 = 0) : onesSum a = (words a).foldl ocAdd 0 := by
  simp [onesSum, padEven, h]

/-- The sum of a buffer of even length followed by another is the sum of both sums. -/
theorem onesSum_append {a : Buffer} (b : Buffer) (h : a.length % 2 = 0) :
    onesSum (a ++ b) = ocAdd (onesSum a) (onesSum b) := by
  have hp : padEven (a ++ b) = a ++ padEven b := by
    unfold padEven
    by_cases hb : b.length % 2 = 1
    · rw [if_pos (by simp; omega), if_pos hb, List.append_assoc]
    · rw [if_neg (by simp; omega), if_neg hb]
  rw [onesSum_of_even h]
  unfold onesSum
  rw [hp, words_append _ _ h, List.foldl_append, foldl_ocAdd]
  rfl

/-- The checksum is the complement of the sum (R400). -/
theorem csumValue_eq (buf : Buffer) : csumValue buf = ~~~ onesSum buf := by simp [csumValue]

end Sys2Proof.Machine
end

