-- ==== Sys2Proof/Laws/Codecs.lean ====
section
/-! SUPPORT. The encoders' outputs as byte lists, and what patching two bytes of a buffer gives. -/

namespace Sys2Proof.Machine

/-- The bytes ETH_ENC writes, in order (R310, R451). -/
theorem ethEncode_eq (f : EthernetFrame) : ethEncode f =
    [f.dst.b0, f.dst.b1, f.dst.b2, f.dst.b3, f.dst.b4, f.dst.b5, f.src.b0, f.src.b1, f.src.b2, f.src.b3, f.src.b4,
      f.src.b5, f.etherType.extractLsb' 8 8, f.etherType.extractLsb' 0 8] := rfl

/-- The bytes IP4_ENC writes, in order (R311, R501). -/
theorem ip4Encode_eq (h : IPv4Header) : ip4Encode h =
    [ip4Byte0 h, h.tos, h.totalLen.extractLsb' 8 8, h.totalLen.extractLsb' 0 8, h.id.extractLsb' 8 8,
      h.id.extractLsb' 0 8, ip4Byte6 h, h.fragOff.extractLsb' 0 8, h.ttl, h.protocol,
      h.checksum.extractLsb' 8 8, h.checksum.extractLsb' 0 8, h.src.b0, h.src.b1, h.src.b2, h.src.b3, h.dst.b0,
      h.dst.b1, h.dst.b2, h.dst.b3] := by
  simp only [ip4Encode, memWrite16, memWrite8, writeAddr, zeros, List.replicate, List.set]

/-- The bytes TCP_ENC writes, in order (R313, R551). -/
theorem tcpEncode_eq (seg : TCPSegment) : tcpEncode seg =
    [seg.srcPort.extractLsb' 8 8, seg.srcPort.extractLsb' 0 8, seg.dstPort.extractLsb' 8 8,
      seg.dstPort.extractLsb' 0 8,
      (seg.seqNum.extractLsb' 16 16).extractLsb' 8 8, (seg.seqNum.extractLsb' 16 16).extractLsb' 0 8,
      (seg.seqNum.extractLsb' 0 16).extractLsb' 8 8, (seg.seqNum.extractLsb' 0 16).extractLsb' 0 8,
      (seg.ackNum.extractLsb' 16 16).extractLsb' 8 8, (seg.ackNum.extractLsb' 16 16).extractLsb' 0 8,
      (seg.ackNum.extractLsb' 0 16).extractLsb' 8 8, (seg.ackNum.extractLsb' 0 16).extractLsb' 0 8,
      flagByte12 seg.dataOffset seg.flags, flagByte13 seg.flags, seg.window.extractLsb' 8 8,
      seg.window.extractLsb' 0 8, 0, 0, 0, 0] := by
  simp only [tcpEncode, memWrite32, memWrite16, memWrite8, zeros, List.replicate, List.set]

@[simp] theorem length_ethEncode (f : EthernetFrame) : (ethEncode f).length = 14 := rfl
@[simp] theorem length_ip4Encode (h : IPv4Header) : (ip4Encode h).length = 20 := by simp [ip4Encode]
@[simp] theorem length_tcpEncode (seg : TCPSegment) : (tcpEncode seg).length = 20 := by simp [tcpEncode]

/-- ETH_DEC on a buffer of at least 14 bytes, written out (R450). -/
theorem ethDecode_bytes (b0 b1 b2 b3 b4 b5 b6 b7 b8 b9 b10 b11 b12 b13 : Byte) (rest : Buffer) :
    ethDecode ([b0, b1, b2, b3, b4, b5, b6, b7, b8, b9, b10, b11, b12, b13] ++ rest) =
      .ok ⟨⟨b0, b1, b2, b3, b4, b5⟩, ⟨b6, b7, b8, b9, b10, b11⟩, b12 ++ b13⟩ := by
  unfold ethDecode
  rw [if_neg (by simp [Config.ethHdrLen])]
  simp [macAt, memRead16, byteAt]

/-- IP4_DEC on a buffer of at least 20 bytes, written out (R500). -/
theorem ip4Decode_bytes
    (b0 b1 b2 b3 b4 b5 b6 b7 b8 b9 b10 b11 b12 b13 b14 b15 b16 b17 b18 b19 : Byte) (rest : Buffer) :
    ip4Decode ([b0, b1, b2, b3, b4, b5, b6, b7, b8, b9, b10, b11, b12, b13, b14, b15, b16, b17, b18, b19] ++ rest) =
      .ok ⟨b0.extractLsb' 4 4, b0.extractLsb' 0 4, b1, b2 ++ b3, b4 ++ b5, b6.extractLsb' 5 3,
        b6.extractLsb' 0 5 ++ b7, b8, b9, b10 ++ b11, ⟨b12, b13, b14, b15⟩, ⟨b16, b17, b18, b19⟩⟩ := by
  unfold ip4Decode
  rw [if_neg (by simp [Config.ip4HdrLen])]
  simp [addrAt, memRead16, byteAt]

/-- TCP_DEC on a buffer of at least 20 bytes, written out (R550). -/
theorem tcpDecode_bytes
    (b0 b1 b2 b3 b4 b5 b6 b7 b8 b9 b10 b11 b12 b13 b14 b15 b16 b17 b18 b19 : Byte) (rest : Buffer) :
    tcpDecode ([b0, b1, b2, b3, b4, b5, b6, b7, b8, b9, b10, b11, b12, b13, b14, b15, b16, b17, b18, b19] ++ rest) =
      .ok ⟨b0 ++ b1, b2 ++ b3, (b4 ++ b5 : U16) ++ (b6 ++ b7 : U16), (b8 ++ b9 : U16) ++ (b10 ++ b11 : U16),
        b12.extractLsb' 4 4, flagsOfBytes b12 b13, b14 ++ b15⟩ := by
  unfold tcpDecode
  rw [if_neg (by simp [Config.tcpHdrLen])]
  simp [memRead32, memRead16, byteAt]

/-- A 16-bit write replaces its two bytes between what stands before and after them (R204). -/
theorem memWrite16_split (buf : Buffer) (off : Nat) (v : U16) (h : off + 2 ≤ buf.length) :
    memWrite16 buf off v = buf.take off ++ [v.extractLsb' 8 8, v.extractLsb' 0 8] ++ buf.drop (off + 2) := by
  unfold memWrite16 memWrite8
  apply List.ext_getElem?
  intro k
  have hlen : (buf.take off).length = off := by rw [List.length_take]; omega
  rw [List.append_assoc]
  rcases Nat.lt_trichotomy k off with hk | hk | hk
  · rw [List.getElem?_append_left (by omega), List.getElem?_set_ne (by omega), List.getElem?_set_ne (by omega),
      List.getElem?_take, if_pos hk]
  · subst hk
    rw [List.getElem?_append_right (by omega), hlen, List.getElem?_set_ne (by omega),
      List.getElem?_set_self (by omega)]
    simp
  · rw [List.getElem?_append_right (by omega), hlen]
    by_cases h2 : k = off + 1
    · subst h2
      rw [List.getElem?_set_self (by rw [List.length_set]; omega)]
      simp
    · rw [List.getElem?_set_ne (by omega), List.getElem?_set_ne (by omega),
        List.getElem?_append_right (by simp; omega), List.getElem?_drop]
      congr 1
      simp
      omega

end Sys2Proof.Machine
end

