-- ==== Sys2Proof/Laws/State.lean ====
section
/-! SUPPORT. One lemma per field for each named update of the state, so that no later proof unfolds a record update. -/

namespace Sys2Proof.Machine

section answer
variable (s : State) (st : Status) (r : Option Value)
@[simp] theorem answer_conn : (s.answer st r).conn = s.conn := rfl
@[simp] theorem answer_fatal : (s.answer st r).fatal = s.fatal := rfl
@[simp] theorem answer_cfg : (s.answer st r).cfg = s.cfg := rfl
@[simp] theorem answer_inputs : (s.answer st r).inputs = s.inputs := rfl
@[simp] theorem answer_response : (s.answer st r).response = some ⟨st, r⟩ := rfl
@[simp] theorem answer_entropy : (s.answer st r).entropy = s.entropy := rfl
@[simp] theorem answer_draws : (s.answer st r).draws = s.draws := rfl
end answer

section drawn
variable (s : State)
@[simp] theorem drawn_conn : s.drawn.conn = s.conn := rfl
@[simp] theorem drawn_fatal : s.drawn.fatal = s.fatal := rfl
@[simp] theorem drawn_cfg : s.drawn.cfg = s.cfg := rfl
@[simp] theorem drawn_inputs : s.drawn.inputs = s.inputs := rfl
@[simp] theorem drawn_response : s.drawn.response = s.response := rfl
@[simp] theorem drawn_entropy : s.drawn.entropy = s.entropy.tail := rfl
@[simp] theorem drawn_draws : s.drawn.draws = s.draws + 1 := rfl
end drawn

section enterFatal
variable (s : State)
@[simp] theorem enterFatal_conn : s.enterFatal.conn = s.conn := rfl
@[simp] theorem enterFatal_fatal : s.enterFatal.fatal = true := rfl
@[simp] theorem enterFatal_cfg : s.enterFatal.cfg = s.cfg := rfl
@[simp] theorem enterFatal_inputs : s.enterFatal.inputs = s.inputs := rfl
@[simp] theorem enterFatal_response : s.enterFatal.response = s.response := rfl
@[simp] theorem enterFatal_entropy : s.enterFatal.entropy = s.entropy := rfl
@[simp] theorem enterFatal_draws : s.enterFatal.draws = s.draws := rfl
end enterFatal

section acceptSyn
variable (s : State) (rip : IPv4Addr) (rport : U16) (isn rn : U32)
@[simp] theorem acceptSyn_state : (s.acceptSyn rip rport isn rn).conn.state = .synReceived := rfl
@[simp] theorem acceptSyn_localIP : (s.acceptSyn rip rport isn rn).conn.localIP = s.conn.localIP := rfl
@[simp] theorem acceptSyn_localPort : (s.acceptSyn rip rport isn rn).conn.localPort = s.conn.localPort := rfl
@[simp] theorem acceptSyn_remoteIP : (s.acceptSyn rip rport isn rn).conn.remoteIP = .written rip := rfl
@[simp] theorem acceptSyn_remotePort : (s.acceptSyn rip rport isn rn).conn.remotePort = .written rport := rfl
@[simp] theorem acceptSyn_sendSeq : (s.acceptSyn rip rport isn rn).conn.sendSeq = .written isn := rfl
@[simp] theorem acceptSyn_recvNext : (s.acceptSyn rip rport isn rn).conn.recvNext = .written rn := rfl
@[simp] theorem acceptSyn_lastAckSent : (s.acceptSyn rip rport isn rn).conn.lastAckSent = .written rn := rfl
@[simp] theorem acceptSyn_fatal : (s.acceptSyn rip rport isn rn).fatal = s.fatal := rfl
@[simp] theorem acceptSyn_cfg : (s.acceptSyn rip rport isn rn).cfg = s.cfg := rfl
@[simp] theorem acceptSyn_inputs : (s.acceptSyn rip rport isn rn).inputs = s.inputs := rfl
@[simp] theorem acceptSyn_response : (s.acceptSyn rip rport isn rn).response = s.response := rfl
@[simp] theorem acceptSyn_entropy : (s.acceptSyn rip rport isn rn).entropy = s.entropy := rfl
@[simp] theorem acceptSyn_draws : (s.acceptSyn rip rport isn rn).draws = s.draws := rfl
end acceptSyn

section acceptAck
variable (s : State) (next : U32)
@[simp] theorem acceptAck_conn :
    (s.acceptAck next).conn = { s.conn with state := .established, sendSeq := .written next } := rfl
@[simp] theorem acceptAck_fatal : (s.acceptAck next).fatal = s.fatal := rfl
@[simp] theorem acceptAck_cfg : (s.acceptAck next).cfg = s.cfg := rfl
@[simp] theorem acceptAck_inputs : (s.acceptAck next).inputs = s.inputs := rfl
@[simp] theorem acceptAck_response : (s.acceptAck next).response = s.response := rfl
@[simp] theorem acceptAck_entropy : (s.acceptAck next).entropy = s.entropy := rfl
@[simp] theorem acceptAck_draws : (s.acceptAck next).draws = s.draws := rfl
end acceptAck

section sampleLocal
variable (s : State) (ip : IPv4Addr) (port : U16)
@[simp] theorem sampleLocal_conn : (s.sampleLocal ip port).conn = s.conn := rfl
@[simp] theorem sampleLocal_fatal : (s.sampleLocal ip port).fatal = s.fatal := rfl
@[simp] theorem sampleLocal_cfg : (s.sampleLocal ip port).cfg = { s.cfg with localIP := ip, localPort := port } := rfl
@[simp] theorem sampleLocal_inputs : (s.sampleLocal ip port).inputs = s.inputs := rfl
@[simp] theorem sampleLocal_response : (s.sampleLocal ip port).response = s.response := rfl
@[simp] theorem sampleLocal_entropy : (s.sampleLocal ip port).entropy = s.entropy := rfl
@[simp] theorem sampleLocal_draws : (s.sampleLocal ip port).draws = s.draws := rfl
end sampleLocal

section clearBlock
variable (s : State)
@[simp] theorem clearBlock_conn : s.clearBlock.conn = Connection.atReset s.cfg := rfl
@[simp] theorem clearBlock_fatal : s.clearBlock.fatal = false := rfl
@[simp] theorem clearBlock_cfg : s.clearBlock.cfg = s.cfg := rfl
@[simp] theorem clearBlock_inputs : s.clearBlock.inputs = s.inputs := rfl
@[simp] theorem clearBlock_response : s.clearBlock.response = none := rfl
@[simp] theorem clearBlock_entropy : s.clearBlock.entropy = s.entropy := rfl
@[simp] theorem clearBlock_draws : s.clearBlock.draws = s.draws := rfl
end clearBlock

section hardReset
variable (s : State) (ip : IPv4Addr) (port : U16)
@[simp] theorem hardReset_conn : (s.hardReset ip port).conn =
    Connection.atReset { s.cfg with localIP := ip, localPort := port } := rfl
@[simp] theorem hardReset_fatal : (s.hardReset ip port).fatal = false := rfl
@[simp] theorem hardReset_cfg : (s.hardReset ip port).cfg = { s.cfg with localIP := ip, localPort := port } := rfl
@[simp] theorem hardReset_inputs : (s.hardReset ip port).inputs = s.inputs := rfl
@[simp] theorem hardReset_response : (s.hardReset ip port).response = none := rfl
@[simp] theorem hardReset_entropy : (s.hardReset ip port).entropy = s.entropy := rfl
@[simp] theorem hardReset_draws : (s.hardReset ip port).draws = s.draws := rfl
end hardReset

section atReset
variable (p : Params)
@[simp] theorem atReset_state : (Connection.atReset p).state = .listen := rfl
@[simp] theorem atReset_localIP : (Connection.atReset p).localIP = p.localIP := rfl
@[simp] theorem atReset_localPort : (Connection.atReset p).localPort = p.localPort := rfl
@[simp] theorem atReset_remoteIP : (Connection.atReset p).remoteIP = .unwritten := rfl
@[simp] theorem atReset_remotePort : (Connection.atReset p).remotePort = .unwritten := rfl
@[simp] theorem atReset_sendSeq : (Connection.atReset p).sendSeq = .unwritten := rfl
@[simp] theorem atReset_recvNext : (Connection.atReset p).recvNext = .unwritten := rfl
@[simp] theorem atReset_lastAckSent : (Connection.atReset p).lastAckSent = .unwritten := rfl
end atReset

/-- An answer on top of an answer is the last one. -/
@[simp] theorem answer_answer (s : State) (st st' : Status) (r r' : Option Value) :
    (s.answer st r).answer st' r' = s.answer st' r' := rfl

end Sys2Proof.Machine
end

