-- ==== Sys2Proof/Laws/Ops.lean ====
section
/-! SUPPORT. What each shared operation can do, said once: provers cite these and do not unfold the operations. -/

namespace Sys2Proof.Machine

theorem unlessFatal_of_fatal {s : State} {k : Result} (h : s.fatal = true) :
    unlessFatal s k = .next (s.answer .fatalEntropy none) := by simp [unlessFatal, h]

theorem unlessFatal_of_ready {s : State} {k : Result} (h : s.fatal = false) : unlessFatal s k = k := by
  simp [unlessFatal, h]

/-- A command that answers a next state did so under FATAL with FATAL_ENTROPY, or went on. -/
theorem unlessFatal_next {s t : State} {k : Result} (h : unlessFatal s k = .next t) :
    (s.fatal = true ∧ t = s.answer .fatalEntropy none) ∨ (s.fatal = false ∧ k = .next t) := by
  unfold unlessFatal at h
  split at h
  · cases h; exact .inl ⟨‹_›, rfl⟩
  · exact .inr ⟨eq_false_of_ne_true ‹_›, h⟩

theorem unlessFatal_ne_fault {s : State} {k : Result} (h : ∀ f, k ≠ .fault f) (f : Fault) :
    unlessFatal s k ≠ .fault f := by
  unfold unlessFatal
  split
  · simp
  · exact h f

theorem admitBuffer_next {s t : State} {n : Nat} {k : Result} (h : admitBuffer s n k = .next t) :
    oversize s.cfg n = false ∧ k = .next t := by
  unfold admitBuffer at h
  split at h
  · cases h
  · exact ⟨eq_false_of_ne_true ‹_›, h⟩

theorem admitBuffer_of_admitted {s : State} {n : Nat} {k : Result} (h : oversize s.cfg n = false) :
    admitBuffer s n k = k := by simp [admitBuffer, h]

theorem admitBuffer_ne_fault {s : State} {n : Nat} {k : Result} (h : ∀ f, k ≠ .fault f) (f : Fault) :
    admitBuffer s n k ≠ .fault f := by
  unfold admitBuffer
  split
  · simp
  · exact h f

theorem admitSegment_next {s t : State} {n : Nat} {k : Result} (h : admitSegment s n k = .next t) :
    oversizeSegment s.cfg n = false ∧ k = .next t := by
  unfold admitSegment at h
  split at h
  · cases h
  · exact ⟨eq_false_of_ne_true ‹_›, h⟩

theorem admitSegment_of_admitted {s : State} {n : Nat} {k : Result} (h : oversizeSegment s.cfg n = false) :
    admitSegment s n k = k := by simp [admitSegment, h]

theorem admitSegment_ne_fault {s : State} {n : Nat} {k : Result} (h : ∀ f, k ≠ .fault f) (f : Fault) :
    admitSegment s n k ≠ .fault f := by
  unfold admitSegment
  split
  · simp
  · exact h f

theorem admitLink_next {s t : State} {k : Result} (h : admitLink s k = .next t) :
    s.cfg.linkType = .ethernet ∧ k = .next t := by
  unfold admitLink at h
  split at h
  · exact ⟨‹_›, h⟩
  · cases h

theorem admitLink_of_ethernet {s : State} {k : Result} (h : s.cfg.linkType = .ethernet) : admitLink s k = k := by
  simp [admitLink, h]

theorem admitLink_ne_fault {s : State} {k : Result} (h : ∀ f, k ≠ .fault f) (f : Fault) :
    admitLink s k ≠ .fault f := by
  unfold admitLink
  split
  · exact h f
  · simp

/-- A codec's answer is the state with a response: OK with the record, or the codec's status with no result. -/
theorem answerDecoded_eq (s : State) (e : Except Status Value) :
    (∃ v, e = .ok v ∧ s.answerDecoded e = s.answer .ok (some v)) ∨
      (∃ st, e = .error st ∧ s.answerDecoded e = s.answer st none) := by
  cases e with
  | ok v => exact .inl ⟨v, rfl, rfl⟩
  | error st => exact .inr ⟨st, rfl, rfl⟩

theorem settle_next {α : Type} {tag : α → Value} {e : Except Fault (Txn α)} {t : State}
    (h : settle tag e = .next t) : ∃ x, e = .ok x ∧ t = x.after.answer x.status (x.result.map tag) := by
  cases e with
  | error f => cases h
  | ok x => cases h; exact ⟨x, rfl, rfl⟩

theorem settle_fault {α : Type} {tag : α → Value} {e : Except Fault (Txn α)} {f : Fault}
    (h : settle tag e = .fault f) : e = .error f := by
  cases e with
  | error g => cases h; rfl
  | ok x => cases h

/-- Reading a register fails only on UNWRITTEN. -/
theorem readReg_ok {α : Type} {n : RegName} {r : Reg α} {v : α} (h : readReg n r = .ok v) : r = .written v := by
  cases r with
  | unwritten => cases h
  | written w => cases h; rfl

@[simp] theorem readReg_written {α : Type} (n : RegName) (v : α) : readReg n (.written v) = .ok v := rfl

/-- The next event is the head of the host's stream, and only the stream changes. -/
theorem nextEvent_some {s s' : State} {e : HostEvent} (h : nextEvent s = some (e, s')) :
    ∃ rest, s.inputs = e :: rest ∧ s' = { s with inputs := rest } := by
  unfold nextEvent at h
  cases hin : s.inputs with
  | nil => rw [hin] at h; cases h
  | cons e' rest => rw [hin] at h; cases h; exact ⟨rest, rfl, rfl⟩

theorem nextEvent_none {s : State} (h : nextEvent s = none) : s.inputs = [] := by
  unfold nextEvent at h
  cases hin : s.inputs with
  | nil => rfl
  | cons e' rest => rw [hin] at h; cases h

end Sys2Proof.Machine
end

