-- ==== Sys2Proof/Laws/Handshake.lean ====
section
/-! SUPPORT. What the handlers, the dispatcher and the pipeline can do, said once. -/

namespace Sys2Proof.Machine

/-- ON_SYN's three outcomes (R651, R654). -/
theorem handleSyn_cases (seg : TCPSegment) (rip : IPv4Addr) (rport : U16) (s : State) :
    (s.conn.state ≠ .listen ∧ handleSyn seg rip rport s = ⟨.protocolMismatch, none, s⟩) ∨
    (s.conn.state = .listen ∧ entropyAnswer s = none ∧
      handleSyn seg rip rport s = ⟨.fatalEntropy, none, s.drawn.enterFatal⟩) ∨
    (∃ isn, s.conn.state = .listen ∧ entropyAnswer s = some isn ∧
      handleSyn seg rip rport s = ⟨.ok, some (synAckSegment s rport isn (seg.seqNum + 1)),
        s.drawn.acceptSyn rip rport isn (seg.seqNum + 1)⟩) := by
  unfold handleSyn
  split
  · cases he : entropyAnswer s with
    | none => exact .inr (.inl ⟨‹_›, rfl, rfl⟩)
    | some isn => exact .inr (.inr ⟨isn, ‹_›, rfl, rfl⟩)
  · exact .inl ⟨‹_›, rfl⟩

/-- ON_ACK's four outcomes (R652, R118). -/
theorem handleAck_cases (seg : TCPSegment) (s : State) :
    (s.conn.state ≠ .synReceived ∧ handleAck seg s = .ok ⟨.protocolMismatch, none, s⟩) ∨
    (s.conn.state = .synReceived ∧ s.conn.sendSeq = .unwritten ∧
      handleAck seg s = .error (.unwrittenRead .sendSeq)) ∨
    (∃ q, s.conn.state = .synReceived ∧ s.conn.sendSeq = .written q ∧ seg.ackNum ≠ q + 1 ∧
      handleAck seg s = .ok ⟨.protocolMismatch, none, s⟩) ∨
    (∃ q, s.conn.state = .synReceived ∧ s.conn.sendSeq = .written q ∧ seg.ackNum = q + 1 ∧
      handleAck seg s = .ok ⟨.ok, none, s.acceptAck (q + 1)⟩) := by
  unfold handleAck
  split
  · cases hq : s.conn.sendSeq with
    | unwritten => exact .inr (.inl ⟨‹_›, rfl, rfl⟩)
    | written q =>
      by_cases ha : seg.ackNum = q + 1
      · exact .inr (.inr (.inr ⟨q, ‹_›, rfl, ha, if_pos ha⟩))
      · exact .inr (.inr (.inl ⟨q, ‹_›, rfl, ha, if_neg ha⟩))
  · exact .inl ⟨‹_›, rfl⟩

/-- DISPATCH's four selections (R700). -/
theorem dispatchSegment_cases (seg : TCPSegment) (sip : IPv4Addr) (s : State) :
    (seg.dstPort ≠ s.conn.localPort ∧ dispatchSegment seg sip s = .ok ⟨.droppedPort, none, s⟩) ∨
    (seg.dstPort = s.conn.localPort ∧ hasFlag seg .syn = true ∧
      dispatchSegment seg sip s = .ok (handleSyn seg sip seg.srcPort s)) ∨
    (seg.dstPort = s.conn.localPort ∧ hasFlag seg .syn = false ∧ hasFlag seg .ack = true ∧
      dispatchSegment seg sip s = handleAck seg s) ∨
    (seg.dstPort = s.conn.localPort ∧ hasFlag seg .syn = false ∧ hasFlag seg .ack = false ∧
      dispatchSegment seg sip s = .ok ⟨.unhandledFlags, none, s⟩) := by
  unfold dispatchSegment
  by_cases hp : seg.dstPort = s.conn.localPort
  · cases hs : hasFlag seg .syn <;> cases ha : hasFlag seg .ack <;> simp [hp]
  · exact .inl ⟨hp, by simp [hp]⟩

/-- What a dispatched segment leads to, whatever was selected: no change, a failed draw, an accepted SYN with its
SYN+ACK, or an accepted ACK. -/
theorem dispatchSegment_ok {seg : TCPSegment} {sip : IPv4Addr} {s : State} {t : Txn TCPSegment}
    (h : dispatchSegment seg sip s = .ok t) :
    (t.status ≠ .ok ∧ t.status ≠ .fatalEntropy ∧ t.result = none ∧ t.after = s) ∨
    (s.conn.state = .listen ∧ entropyAnswer s = none ∧ t = ⟨.fatalEntropy, none, s.drawn.enterFatal⟩) ∨
    (∃ isn, seg.dstPort = s.conn.localPort ∧ hasFlag seg .syn = true ∧ s.conn.state = .listen ∧
      entropyAnswer s = some isn ∧ t = ⟨.ok, some (synAckSegment s seg.srcPort isn (seg.seqNum + 1)),
        s.drawn.acceptSyn sip seg.srcPort isn (seg.seqNum + 1)⟩) ∨
    (∃ q, s.conn.state = .synReceived ∧ s.conn.sendSeq = .written q ∧ t = ⟨.ok, none, s.acceptAck (q + 1)⟩) := by
  obtain ⟨-, hd⟩ | ⟨hp, hf, hd⟩ | ⟨-, -, -, hd⟩ | ⟨-, -, -, hd⟩ := dispatchSegment_cases seg sip s
  · rw [hd] at h; cases h; simp
  · rw [hd] at h; cases h
    obtain ⟨-, he⟩ | ⟨hl, hn, he⟩ | ⟨isn, hl, hs, he⟩ := handleSyn_cases seg sip seg.srcPort s
    · rw [he]; simp
    · exact .inr (.inl ⟨hl, hn, he⟩)
    · exact .inr (.inr (.inl ⟨isn, hp, hf, hl, hs, he⟩))
  · rw [hd] at h
    obtain ⟨-, he⟩ | ⟨-, -, he⟩ | ⟨q, -, -, -, he⟩ | ⟨q, hl, hq, -, he⟩ := handleAck_cases seg s
    · rw [he] at h; cases h; simp
    · rw [he] at h; cases h
    · rw [he] at h; cases h; simp
    · rw [he] at h; cases h; exact .inr (.inr (.inr ⟨q, hl, hq, rfl⟩))
  · rw [hd] at h; cases h; simp

end Sys2Proof.Machine
end

