-- ==== Sys2Proof/Laws/PerInstr.lean ====
section
/-! SUPPORT. Statements for all instructions, one lemma per constructor of `Instr`. -/

/-- Decoding the transaction of a well-formed instruction gives it back (30_encoding.md R301, R302). -/
def Sys2Proof.Laws.RoundTrip.Statement (i : Sys2Proof.Instr) : Prop :=
  i.wf = true → Sys2Proof.decode (Sys2Proof.encode i) = .ok i

namespace Sys2Proof.Laws.RoundTrip

theorem csum (buf : Buffer) : Statement (.csum buf) := fun _ => rfl
theorem ethDec (buf : Buffer) : Statement (.ethDec buf) := fun _ => rfl
theorem ethEnc (f : EthernetFrame) : Statement (.ethEnc f) := fun _ => rfl
theorem ip4Dec (buf : Buffer) : Statement (.ip4Dec buf) := fun _ => rfl
theorem ip4Enc (h : IPv4Header) : Statement (.ip4Enc h) := fun _ => rfl
theorem tcpDec (buf : Buffer) : Statement (.tcpDec buf) := fun _ => rfl
theorem tcpEnc (seg : TCPSegment) : Statement (.tcpEnc seg) := fun _ => rfl
theorem tcpCsum (src dst : IPv4Addr) (seg : Buffer) : Statement (.tcpCsum src dst seg) := fun _ => rfl
theorem tcpSeal (src dst : IPv4Addr) (seg : Buffer) : Statement (.tcpSeal src dst seg) := fun _ => rfl
theorem onSyn (seg : TCPSegment) (rip : IPv4Addr) (rport : U16) : Statement (.onSyn seg rip rport) := fun _ => rfl
theorem onAck (seg : TCPSegment) : Statement (.onAck seg) := fun _ => rfl
theorem dispatch (seg : TCPSegment) (sip : IPv4Addr) : Statement (.dispatch seg sip) := fun _ => rfl
theorem rxFrame (frame : Buffer) : Statement (.rxFrame frame) := fun _ => rfl
theorem connRead : Statement .connRead := fun _ => rfl

/-- The reserved codes of R302 are the codes the table does not hold. -/
theorem opOfCode_reserved : ∀ code : Byte, isReservedCode code = true → opOfCode code = none := by decide

theorem reserved (code : Byte) : Statement (.reserved code) := fun h => by
  have hc : opOfCode code = none := opOfCode_reserved code h
  simp [decode, encode, hc]

end Sys2Proof.Laws.RoundTrip
end

