-- ==== Sys2Proof/Laws/Step.lean ====
section
/-! SUPPORT. What a command and a step can do, said once (70_reset_and_hazards.md R900, 60_exceptions.md R811, R812): every
invariant of the machine is a case analysis over these lemmas. -/

namespace Sys2Proof.Machine

/-- What a command that ran to its end, with FATAL = 0, has done: it only answered; or a draw failed; or a SYN was
accepted; or an ACK was accepted. -/
inductive Effect (i : Instr) (s : State) : State → Prop where
  /-- Only the answer was given, and no status but OK has a result. -/
  | answered (st : Status) (r : Option Value) (hst : st ≠ .fatalEntropy) (hr : st ≠ .ok → r = none) :
      Effect i s (s.answer st r)
  /-- EntropyFailure (R654). -/
  | drawFailed (hi : reachesOnSyn i = true) (hl : s.conn.state = .listen) (hd : entropyAnswer s = none) :
      Effect i s (s.drawn.enterFatal.answer .fatalEntropy none)
  /-- ON_SYN succeeded (R651). -/
  | synAccepted (hi : reachesOnSyn i = true) (hl : s.conn.state = .listen) (isn : U32)
      (hd : entropyAnswer s = some isn) (rip : IPv4Addr) (rport : U16) (rn : U32) (r : Option Value) :
      Effect i s ((s.drawn.acceptSyn rip rport isn rn).answer .ok r)
  /-- ON_ACK succeeded (R652). -/
  | ackAccepted (hi : reachesOnAck i = true) (hl : s.conn.state = .synReceived) (q : U32)
      (hq : s.conn.sendSeq = .written q) : Effect i s ((s.acceptAck (q + 1)).answer .ok none)

/-- A decoder that ends in OK or FORMAT_ERROR only answers. -/
theorem effect_of_decoded {i : Instr} {s t : State} {e : Except Status Value}
    (he : ∀ st, e = .error st → st = .formatError) (h : Host.Outcome.next (s.answerDecoded e) = (.next t : Result)) :
    Effect i s t := by
  cases h
  cases e with
  | ok v => exact .answered .ok (some v) (by decide) (by simp)
  | error st => cases he st rfl; exact .answered .formatError none (by decide) (by simp)

theorem ethDecode_error {buf : Buffer} {st : Status} (h : ethDecode buf = .error st) : st = .formatError := by
  unfold ethDecode at h; split at h <;> cases h; rfl

theorem ip4Decode_error {buf : Buffer} {st : Status} (h : ip4Decode buf = .error st) : st = .formatError := by
  unfold ip4Decode at h; split at h <;> cases h; rfl

theorem tcpDecode_error {buf : Buffer} {st : Status} (h : tcpDecode buf = .error st) : st = .formatError := by
  unfold tcpDecode at h; split at h <;> cases h; rfl

theorem tcpSealed_error {src dst : IPv4Addr} {seg : Buffer} {st : Status} (h : tcpSealed src dst seg = .error st) :
    st = .formatError := by
  unfold tcpSealed at h; split at h <;> cases h; rfl

/-- A tagged decoder fails as the decoder does. -/
theorem error_of_map {α : Type} {e : Except Status α} {f : α → Value} {st : Status} (h : e.map f = .error st) :
    e = .error st := by
  cases e with
  | ok v => cases h
  | error st' => cases h; rfl

/-- What the pipeline did (R701): a header was short, or it was the dispatched segment's transaction with its response
turned into a frame. -/
theorem processFrame_ok {frame : Buffer} {s : State} {x : Txn Buffer} (h : processFrame frame s = .ok x) :
    x = ⟨.formatError, none, s⟩ ∨
    ∃ eth seg sip t, dispatchSegment seg sip s = .ok t ∧ replyTo eth t = .ok x := by
  unfold processFrame at h
  split at h
  · cases h; cases ethDecode_error ‹_›; exact .inl rfl
  split at h
  · cases h; cases ip4Decode_error ‹_›; exact .inl rfl
  split at h
  · cases h; cases tcpDecode_error ‹_›; exact .inl rfl
  split at h
  · cases h
  · exact .inr ⟨_, _, _, _, ‹_›, h⟩

/-- The reply keeps the transaction's status and state, and has no result where the transaction has none. -/
theorem replyTo_ok {eth : EthernetFrame} {t : Txn TCPSegment} {x : Txn Buffer} (h : replyTo eth t = .ok x) :
    x.status = t.status ∧ x.after = t.after ∧ (t.result = none → x.result = none) := by
  unfold replyTo at h
  split at h
  · split at h
    · cases h
    · cases h; simp_all
  · cases h; simp

/-- Every command tests FATAL first (R811). -/
theorem exec_of_fatal (i : Instr) {s : State} (h : s.fatal = true) :
    exec i s = .next (s.answer .fatalEntropy none) := by
  cases i <;> exact unlessFatal_of_fatal h

/-- What a command that answers a next state has done. -/
theorem exec_next {i : Instr} {s t : State} (h : exec i s = .next t) :
    (s.fatal = true ∧ t = s.answer .fatalEntropy none) ∨ (s.fatal = false ∧ Effect i s t) := by
  cases hf : s.fatal with
  | true => rw [exec_of_fatal i hf] at h; cases h; exact .inl ⟨rfl, rfl⟩
  | false =>
    refine .inr ⟨rfl, ?_⟩
    cases i with
    | csum buf =>
      have h := (admitBuffer_next ((unlessFatal_of_ready hf).symm.trans h)).2
      cases h; exact .answered _ _ (by decide) (by simp)
    | ethDec buf =>
      exact effect_of_decoded (fun _ he => ethDecode_error (error_of_map he))
        (admitBuffer_next ((unlessFatal_of_ready hf).symm.trans h)).2
    | ethEnc f =>
      have h := (unlessFatal_of_ready hf).symm.trans h
      cases h; exact .answered _ _ (by decide) (by simp)
    | ip4Dec buf =>
      exact effect_of_decoded (fun _ he => ip4Decode_error (error_of_map he))
        (admitBuffer_next ((unlessFatal_of_ready hf).symm.trans h)).2
    | ip4Enc hd =>
      have h := (unlessFatal_of_ready hf).symm.trans h
      cases h; exact .answered _ _ (by decide) (by simp)
    | tcpDec buf =>
      exact effect_of_decoded (fun _ he => tcpDecode_error (error_of_map he))
        (admitBuffer_next ((unlessFatal_of_ready hf).symm.trans h)).2
    | tcpEnc seg =>
      have h := (unlessFatal_of_ready hf).symm.trans h
      cases h; exact .answered _ _ (by decide) (by simp)
    | tcpCsum src dst seg =>
      have h := (admitSegment_next ((unlessFatal_of_ready hf).symm.trans h)).2
      cases h; exact .answered _ _ (by decide) (by simp)
    | tcpSeal src dst seg =>
      exact effect_of_decoded (fun _ he => tcpSealed_error (error_of_map he))
        (admitSegment_next ((unlessFatal_of_ready hf).symm.trans h)).2
    | onSyn seg rip rport =>
      obtain ⟨x, hx, rfl⟩ := settle_next ((unlessFatal_of_ready hf).symm.trans h)
      cases hx
      obtain ⟨-, he⟩ | ⟨hl, hd, he⟩ | ⟨isn, hl, hd, he⟩ := handleSyn_cases seg rip rport s
      · rw [he]; exact .answered _ _ nofun fun _ => rfl
      · rw [he]; exact .drawFailed rfl hl hd
      · rw [he]; exact .synAccepted rfl hl isn hd _ _ _ _
    | onAck seg =>
      obtain ⟨x, hx, rfl⟩ := settle_next ((unlessFatal_of_ready hf).symm.trans h)
      obtain ⟨-, he⟩ | ⟨-, -, he⟩ | ⟨q, -, -, -, he⟩ | ⟨q, hl, hq, -, he⟩ := handleAck_cases seg s
      · rw [he] at hx; cases hx; exact .answered _ _ nofun fun _ => rfl
      · rw [he] at hx; cases hx
      · rw [he] at hx; cases hx; exact .answered _ _ nofun fun _ => rfl
      · rw [he] at hx; cases hx; exact .ackAccepted rfl hl q hq
    | dispatch seg sip =>
      obtain ⟨x, hx, rfl⟩ := settle_next ((unlessFatal_of_ready hf).symm.trans h)
      obtain ⟨-, h2, h3, h4⟩ | ⟨hl, hd, rfl⟩ | ⟨isn, -, -, hl, hd, rfl⟩ | ⟨q, hl, hq, rfl⟩ := dispatchSegment_ok hx
      · rw [h3, h4]; exact .answered _ _ h2 fun _ => rfl
      · exact .drawFailed rfl hl hd
      · exact .synAccepted rfl hl isn hd _ _ _ _
      · exact .ackAccepted rfl hl q hq
    | rxFrame frame =>
      obtain ⟨x, hx, rfl⟩ := settle_next
        (admitBuffer_next (admitLink_next ((unlessFatal_of_ready hf).symm.trans h)).2).2
      obtain rfl | ⟨eth, seg, sip, y, hy, hr⟩ := processFrame_ok hx
      · exact .answered _ _ nofun fun _ => rfl
      · obtain ⟨e1, e2, e3⟩ := replyTo_ok hr
        rw [e1, e2]
        obtain ⟨-, h2, h3, h4⟩ | ⟨hl, hd, rfl⟩ | ⟨isn, -, -, hl, hd, rfl⟩ | ⟨q, hl, hq, rfl⟩ := dispatchSegment_ok hy
        · rw [h4, e3 h3]; exact .answered _ _ h2 fun _ => rfl
        · rw [e3 rfl]; exact .drawFailed rfl hl hd
        · exact .synAccepted rfl hl isn hd _ _ _ _
        · rw [e3 rfl]; exact .ackAccepted rfl hl q hq
    | connRead =>
      have h := (unlessFatal_of_ready hf).symm.trans h
      cases h; exact .answered _ _ (by decide) (by simp)
    | reserved code =>
      have h := (unlessFatal_of_ready hf).symm.trans h
      cases h; exact .answered _ _ nofun fun _ => rfl

/-- What a step that answers a next state has done: nothing was issued; a reset; a command; or, under FATAL, a
transaction that fits no command was answered like one. -/
theorem step_next {s t : State} (h : step s = .next t) :
    (s.inputs = [] ∧ t = s) ∨
    (∃ ip port rest, s.inputs = .reset ip port :: rest ∧ t = { s with inputs := rest }.hardReset ip port) ∨
    (∃ c rest i, s.inputs = .command c :: rest ∧ decode c = .ok i ∧ exec i { s with inputs := rest } = .next t) ∨
    (∃ c rest, s.inputs = .command c :: rest ∧ s.fatal = true ∧
      t = { s with inputs := rest }.answer .fatalEntropy none) := by
  unfold step at h
  split at h
  · cases h; exact .inl ⟨nextEvent_none ‹_›, rfl⟩
  · cases h
    obtain ⟨rest, h1, rfl⟩ := nextEvent_some ‹_›
    exact .inr (.inl ⟨_, _, rest, h1, rfl⟩)
  · obtain ⟨rest, h1, rfl⟩ := nextEvent_some ‹_›
    split at h
    · exact .inr (.inr (.inl ⟨_, rest, _, h1, ‹_›, h⟩))
    · rename_i e _
      cases e
      obtain ⟨hf, ht⟩ | ⟨-, ht⟩ := unlessFatal_next h
      · exact .inr (.inr (.inr ⟨_, rest, h1, hf, ht⟩))
      · cases ht

end Sys2Proof.Machine
end

