-- ==== Sys2Proof/Machine/Assembler.lean ====
section
/-! DEFINITION. The written form of commands and outcomes (30_encoding.md R303): text only, no meaning depends on it.
Text is a list of characters. -/

namespace Sys2Proof.Machine

/-- A written form. -/
abbrev Text := List Char

/-- One hexadecimal digit, in capitals as R303 writes them. -/
def hexDigit (n : Nat) : Char := if n < 10 then Char.ofNat (48 + n) else Char.ofNat (55 + n)

/-- A byte as a hexadecimal pair. -/
def hexByte (b : Byte) : Text := [hexDigit (b.toNat / 16), hexDigit (b.toNat % 16)]

/-- The pieces with a separator between them. -/
def joinText (sep : Text) : List Text → Text
  | [] => []
  | [x] => x
  | x :: rest => x ++ sep ++ joinText sep rest

/-- The decimal digits of a number, at most `fuel` of them, before the text `acc`. -/
def decimalDigits : Nat → Nat → Text → Text
  | 0, _, acc => acc
  | fuel + 1, n, acc =>
    let acc := Char.ofNat (48 + n % 10) :: acc
    if n / 10 = 0 then acc else decimalDigits fuel (n / 10) acc

/-- An integer in decimal (R303); ten digits hold every 32-bit value. -/
def decimal (n : Nat) : Text := decimalDigits 10 n []

/-- A byte buffer: h"AA BB CC", pairs in index order. -/
def textOfBytes (buf : Buffer) : Text := ['h', '"'] ++ joinText [' '] (buf.map hexByte) ++ ['"']

/-- An IPv4 address in dotted decimal. -/
def textOfAddr (a : IPv4Addr) : Text := joinText ['.'] ((addrBytes a).map fun b => decimal b.toNat)

/-- A MAC address in colon-hex, in index order. -/
def textOfMac (a : MacAddr) : Text := joinText [':'] ((macBytes a).map hexByte)

/-- A record: field=value items between braces. -/
def textOfRecord (fields : List (Text × Text)) : Text :=
  [Char.ofNat 123] ++ joinText [',', ' '] (fields.map fun f => f.1 ++ ['='] ++ f.2) ++ [Char.ofNat 125]

/-- A register's content; UNWRITTEN is written as the marker. -/
def textOfReg {α : Type} (write : α → Text) : Reg α → Text
  | .unwritten => "UNWRITTEN".toList
  | .written v => write v

/-- The name of a connection state (R113). -/
def textOfState : ConnState → Text
  | .listen => "LISTEN".toList
  | .synReceived => "SYN_RECEIVED".toList
  | .established => "ESTABLISHED".toList
  | .finWait1 => "FIN_WAIT_1".toList
  | .finWait2 => "FIN_WAIT_2".toList
  | .closeWait => "CLOSE_WAIT".toList
  | .closing => "CLOSING".toList
  | .lastAck => "LAST_ACK".toList
  | .closed => "CLOSED".toList
  | .synSent => "SYN_SENT".toList
  | .timeWait => "TIME_WAIT".toList

/-- A 4-bit state code as the name of its state (R113), or as a number where it names none. -/
def textOfStateCode (c : BitVec 4) : Text :=
  match [ConnState.listen, .synReceived, .established, .finWait1, .finWait2, .closeWait, .closing, .lastAck, .closed,
      .synSent, .timeWait].find? (fun st => stateCode st == c) with
  | some st => textOfState st
  | none => decimal c.toNat

/-- EthernetFrame with the field names of R310. -/
def textOfEthernet (f : EthernetFrame) : Text := textOfRecord
  [("dst".toList, textOfMac f.dst), ("src".toList, textOfMac f.src), ("etherType".toList, decimal f.etherType.toNat)]

/-- IPv4Header with the field names of R311. -/
def textOfIp4 (h : IPv4Header) : Text := textOfRecord
  [("version".toList, decimal h.version.toNat), ("ihl".toList, decimal h.ihl.toNat),
   ("tos".toList, decimal h.tos.toNat), ("totalLen".toList, decimal h.totalLen.toNat),
   ("id".toList, decimal h.id.toNat), ("flags".toList, decimal h.flags.toNat),
   ("fragOff".toList, decimal h.fragOff.toNat), ("ttl".toList, decimal h.ttl.toNat),
   ("protocol".toList, decimal h.protocol.toNat), ("checksum".toList, decimal h.checksum.toNat),
   ("src".toList, textOfAddr h.src), ("dst".toList, textOfAddr h.dst)]

/-- TCPSegment with the field names of R313. -/
def textOfSegment (seg : TCPSegment) : Text := textOfRecord
  [("srcPort".toList, decimal seg.srcPort.toNat), ("dstPort".toList, decimal seg.dstPort.toNat),
   ("seqNum".toList, decimal seg.seqNum.toNat), ("ackNum".toList, decimal seg.ackNum.toNat),
   ("dataOffset".toList, decimal seg.dataOffset.toNat), ("flags".toList, decimal seg.flags.toNat),
   ("window".toList, decimal seg.window.toNat)]

/-- ConnView with the field names of R316. -/
def textOfConnView (v : ConnView) : Text := textOfRecord
  [("state".toList, textOfStateCode v.state), ("localIP".toList, textOfAddr v.localIP),
   ("localPort".toList, decimal v.localPort.toNat), ("remoteIP".toList, textOfReg textOfAddr v.remoteIP),
   ("remotePort".toList, textOfReg (fun p => decimal p.toNat) v.remotePort),
   ("sendSeq".toList, textOfReg (fun n => decimal n.toNat) v.sendSeq),
   ("recvNext".toList, textOfReg (fun n => decimal n.toNat) v.recvNext),
   ("lastAckSent".toList, textOfReg (fun n => decimal n.toNat) v.lastAckSent)]

/-- An operand (R303). -/
def textOfOperand : Operand → Text
  | .bytes buf => textOfBytes buf
  | .u16 v => decimal v.toNat
  | .ipv4Addr a => textOfAddr a
  | .ethernetFrame f => textOfEthernet f
  | .ipv4Header h => textOfIp4 h
  | .tcpSegment seg => textOfSegment seg

/-- The mnemonics of R301. -/
def textOfOp : Op → Text
  | .csum => "CSUM".toList
  | .ethDec => "ETH_DEC".toList
  | .ethEnc => "ETH_ENC".toList
  | .ip4Dec => "IP4_DEC".toList
  | .ip4Enc => "IP4_ENC".toList
  | .tcpDec => "TCP_DEC".toList
  | .tcpEnc => "TCP_ENC".toList
  | .tcpCsum => "TCP_CSUM".toList
  | .tcpSeal => "TCP_SEAL".toList
  | .onSyn => "ON_SYN".toList
  | .onAck => "ON_ACK".toList
  | .dispatch => "DISPATCH".toList
  | .rxFrame => "RX_FRAME".toList
  | .connRead => "CONN_READ".toList

/-- A command: MNEMONIC operand, operand, ...; a reserved code is written as its number (R303, R751). -/
def textOfCommand (c : Command) : Text :=
  let name :=
    match opOfCode c.code with
    | some op => textOfOp op
    | none => ['0', 'x'] ++ hexByte c.code
  match c.operands with
  | [] => name
  | _ => name ++ [' '] ++ joinText [',', ' '] (c.operands.map textOfOperand)

/-- The name of a status (R330). -/
def textOfStatus : Status → Text
  | .ok => "OK".toList
  | .formatError => "FORMAT_ERROR".toList
  | .protocolMismatch => "PROTOCOL_MISMATCH".toList
  | .droppedPort => "DROPPED_PORT".toList
  | .unhandledFlags => "UNHANDLED_FLAGS".toList
  | .illegalCommand => "ILLEGAL_COMMAND".toList
  | .fatalEntropy => "FATAL_ENTROPY".toList

/-- A result value. -/
def textOfValue : Value → Text
  | .u16 v => decimal v.toNat
  | .bytes buf => textOfBytes buf
  | .ethernetFrame f => textOfEthernet f
  | .ipv4Header h => textOfIp4 h
  | .tcpSegment seg => textOfSegment seg
  | .connView v => textOfConnView v

/-- The outcome part of a written command: -> status, result (R303). -/
def textOfOutcome (r : Response) : Text :=
  "-> ".toList ++ textOfStatus r.status ++ ", ".toList ++
    (match r.result with
    | none => "none".toList
    | some v => textOfValue v)

end Sys2Proof.Machine
end

