-- ==== Sys2Proof/Tests/Slice0.lean ====
section
/-! SUPPORT. The model's own tests. Expected values are those of spec/95_test_vectors.md (V<n>, P<n>) or of the rule a
test names; each is about one step. The witnesses at the end show, for each obligation with hypotheses, values that
meet them together. -/

namespace Sys2Proof.Tests

open Sys2Proof Sys2Proof.Machine Sys2Proof.Claims

/-! ### Values and helpers -/

def ipA : IPv4Addr := ⟨10, 0, 0, 1⟩
def ipB : IPv4Addr := ⟨10, 0, 0, 2⟩
def ipC : IPv4Addr := ⟨192, 168, 1, 1⟩
def ipD : IPv4Addr := ⟨192, 168, 1, 2⟩

/-- CFG0, the parameters of 95_test_vectors.md. -/
def cfg0 : Params := ⟨ipA, 8080, 0xFFFF, 0, 0, 0b010, 64, .ethernet, none⟩

/-- After reset under CFG0, with the entropy source about to give `e`. -/
def start (e : List (Option U32)) : State := { State.resetWith cfg0 with entropy := e }

/-- The state after V40's ON_SYN (SYN_RECEIVED). -/
def received : State :=
  { State.resetWith cfg0 with
    conn := ⟨.synReceived, ipA, 8080, .written ipB, .written 40000, .written 0x12345678, .written 0x1001,
      .written 0x1001⟩ }

/-- The state after V42's ON_ACK (ESTABLISHED). -/
def established : State :=
  { received with
    conn := { received.conn with state := .established, sendSeq := .written 0x12345679 } }

/-- FATAL after V45's failed draw. -/
def dead : State := { State.resetWith cfg0 with fatal := true }

/-- P_MAX_BUF = 54, the least value R12 allows. -/
def small : State := State.resetWith { cfg0 with maxBuf := some 54 }

/-- A loopback link (R706). -/
def loopback : State := State.resetWith { cfg0 with linkType := .other 1 }

/-- One step on the state with this one command issued. -/
def run (i : Instr) (s : State) : Option State :=
  match step { s with inputs := [.command (encode i)] } with
  | .next t => some t
  | .fault _ => none
  | .refused _ => none

/-- What the command is answered. -/
def answer (i : Instr) (s : State) : Option Response := (run i s).bind fun t => t.response

/-- The Connection and FATAL after the command. -/
def after (i : Instr) (s : State) : Option (Connection × Bool) := (run i s).map fun t => (t.conn, t.fatal)

/-- Whether the outcome is a next state. -/
def isNext : Host.Outcome State Fault Refusal → Bool
  | .next _ => true
  | .fault _ => false
  | .refused _ => false

def syn0 : TCPSegment := ⟨40000, 8080, 0x1000, 0, 5, 0x002, 0x7210⟩
def ack0 (n : U32) : TCPSegment := ⟨40000, 8080, 0x1001, n, 5, 0x010, 0x7210⟩
def seg0 : Buffer := [0x12, 0x34, 0x00, 0x50, 1, 2, 3, 4, 5, 6, 7, 8, 0x50, 0x18, 0x04, 0x00, 0, 0, 0, 0]
def seg0Sealed : Buffer := [0x12, 0x34, 0x00, 0x50, 1, 2, 3, 4, 5, 6, 7, 8, 0x50, 0x18, 0x04, 0x00, 0x05, 0xE1, 0, 0]
def eth1 : Buffer := [0xAA, 0xBB, 0xCC, 0xDD, 0xEE, 0xFF, 0x11, 0x22, 0x33, 0x44, 0x55, 0x66, 0x08, 0x00]
def frame1 : EthernetFrame := ⟨⟨0xAA, 0xBB, 0xCC, 0xDD, 0xEE, 0xFF⟩, ⟨0x11, 0x22, 0x33, 0x44, 0x55, 0x66⟩, 0x0800⟩
def ip16 : Buffer :=
  [0x4F, 0xB8, 0x05, 0xDC, 0xAB, 0xCD, 0xBF, 0xFF, 0x01, 0x11, 0x12, 0x34, 192, 168, 0, 1, 255, 255, 255, 255]
def header16 : IPv4Header :=
  ⟨4, 15, 0xB8, 1500, 0xABCD, 0b101, 0x1FFF, 1, 17, 0x1234, ⟨192, 168, 0, 1⟩, ⟨255, 255, 255, 255⟩⟩
def tcp21 : Buffer :=
  [0x00, 0x50, 0xC3, 0x50, 0xFF, 0xFF, 0xFF, 0xFF, 0x80, 0, 0, 0, 0xFF, 0xFF, 0, 0, 0xAB, 0xCD, 0x12, 0x34]
def segment21 : TCPSegment := ⟨80, 50000, 0xFFFFFFFF, 0x80000000, 15, 0x1FF, 0⟩
def tcp20 : Buffer :=
  [0x1F, 0x90, 0x9C, 0x40, 0x12, 0x34, 0x56, 0x78, 0x00, 0x00, 0x10, 0x01, 0x50, 0x12, 0xFF, 0xFF, 0, 0, 0, 0]
def segment20 : TCPSegment := ⟨8080, 40000, 0x12345678, 0x1001, 5, 0x012, 0xFFFF⟩

/-- FRAME_SYN of P1. -/
def frameSyn : Buffer :=
  [0x02, 0, 0, 0, 0, 0x01, 0x02, 0, 0, 0, 0, 0x02, 0x08, 0x00,
    0x45, 0, 0, 0x28, 0, 0x01, 0x40, 0, 0x40, 0x06, 0x26, 0xCD, 0x0A, 0, 0, 0x02, 0x0A, 0, 0, 0x01,
    0x9C, 0x40, 0x1F, 0x90, 0, 0, 0x10, 0, 0, 0, 0, 0, 0x50, 0x02, 0x72, 0x10, 0x5D, 0xFF, 0, 0]

/-- FRAME_SYN_IHL6 of V60. -/
def frameSynIhl6 : Buffer :=
  [0x02, 0, 0, 0, 0, 0x01, 0x02, 0, 0, 0, 0, 0x02, 0x08, 0x00,
    0x46, 0, 0, 0x2C, 0, 0x08, 0x40, 0, 0x40, 0x06, 0x25, 0xC2, 0x0A, 0, 0, 0x02, 0x0A, 0, 0, 0x01, 0, 0, 0, 0,
    0x9C, 0x40, 0x1F, 0x90, 0, 0, 0x10, 0, 0, 0, 0, 0, 0x50, 0x02, 0x72, 0x10, 0x5D, 0xFF, 0, 0]

/-- REPLY_SYNACK of P1. -/
def replySynAck : Buffer :=
  [0x02, 0, 0, 0, 0, 0x02, 0x02, 0, 0, 0, 0, 0x01, 0x08, 0x00,
    0x45, 0, 0, 0x28, 0, 0, 0x40, 0, 0x40, 0x06, 0x26, 0xCE, 0x0A, 0, 0, 0x01, 0x0A, 0, 0, 0x02,
    0x1F, 0x90, 0x9C, 0x40, 0x12, 0x34, 0x56, 0x78, 0, 0, 0x10, 0x01, 0x50, 0x12, 0xFF, 0xFF, 0x67, 0x52, 0, 0]

/-! ### Well-formedness and decoding -/

/-- Each check refuses an ill-formed term: a code of R301 is no reserved code, and 53 is no P_MAX_BUF (R12). -/
theorem test_wf_refuses_ill_formed :
    (Instr.reserved 0x01).wf = false ∧ (Instr.reserved 0x13).wf = false ∧ (Instr.reserved 0x20).wf = false ∧
      (Instr.reserved 0x21).wf = true ∧ ({ cfg0 with maxBuf := some 53 } : Params).wf = false ∧
      ({ cfg0 with maxBuf := some 54 } : Params).wf = true := by decide

/-- The opcode table's words, from its "encoding" column. -/
theorem test_decode_checksum_and_codecs :
    decodeTableWord 8 0b00000001 = some (.csum []) ∧ decodeTableWord 8 0b00000010 = some (.ethDec []) ∧
    decodeTableWord 8 0b00000011 = some (.ethEnc ⟨⟨0, 0, 0, 0, 0, 0⟩, ⟨0, 0, 0, 0, 0, 0⟩, 0⟩) ∧
    decodeTableWord 8 0b00000100 = some (.ip4Dec []) ∧
    decodeTableWord 8 0b00000101 = some (.ip4Enc ⟨0, 0, 0, 0, 0, 0, 0, 0, 0, 0, ⟨0, 0, 0, 0⟩, ⟨0, 0, 0, 0⟩⟩) ∧
    decodeTableWord 8 0b00000110 = some (.tcpDec []) ∧
    decodeTableWord 8 0b00000111 = some (.tcpEnc ⟨0, 0, 0, 0, 0, 0, 0⟩) ∧
    decodeTableWord 8 0b00001000 = some (.tcpCsum ⟨0, 0, 0, 0⟩ ⟨0, 0, 0, 0⟩ []) ∧
    decodeTableWord 8 0b00001001 = some (.tcpSeal ⟨0, 0, 0, 0⟩ ⟨0, 0, 0, 0⟩ []) := by decide

theorem test_decode_connection_and_system :
    decodeTableWord 8 0b00010000 = some (.onSyn ⟨0, 0, 0, 0, 0, 0, 0⟩ ⟨0, 0, 0, 0⟩ 0) ∧
    decodeTableWord 8 0b00010001 = some (.onAck ⟨0, 0, 0, 0, 0, 0, 0⟩) ∧
    decodeTableWord 8 0b00010010 = some (.dispatch ⟨0, 0, 0, 0, 0, 0, 0⟩ ⟨0, 0, 0, 0⟩) ∧
    decodeTableWord 8 0b00010011 = some (.rxFrame []) ∧ decodeTableWord 8 0b00100000 = some .connRead ∧
    decodeTableWord 8 0b00000000 = some (.reserved 0x00) ∧ decodeTableWord 8 0b00001010 = some (.reserved 0x0A) ∧
    decodeTableWord 8 0b11111111 = some (.reserved 0xFF) ∧ decodeTableWord 8 0x101 = none := by decide

/-- From reset, with a table word issued, every command but DISPATCH runs (DISPATCH: the next theorem). -/
theorem test_first_step_runs :
    [0x00, 0x01, 0x02, 0x03, 0x04, 0x05, 0x06, 0x07, 0x08, 0x09, 0x10, 0x11, 0x13, 0x20, 0xFF].all
      (fun w => isNext (step (State.reset.withFetchWord 8 w))) = true := by decide

/-- DISPATCH of the zero segment runs too, whatever P_LOCAL_PORT is. -/
theorem test_first_step_runs_dispatch : isNext (step (State.reset.withFetchWord 8 0x12)) = true := by
  have runs : ∀ s : State, isNext (settle .tcpSegment (dispatchSegment zeroSegment zeroAddr s)) = true := by
    intro s
    obtain ⟨-, h⟩ | ⟨-, h, -⟩ | ⟨-, -, h, -⟩ | ⟨-, -, -, h⟩ := dispatchSegment_cases zeroSegment zeroAddr s
    · rw [h]; rfl
    · exact absurd h (by decide)
    · exact absurd h (by decide)
    · rw [h]; rfl
  exact runs _

/-! ### One step of each command -/

/-- V10: two carries and an odd length. -/
theorem test_csum_carry_and_odd :
    answer (.csum [0xFF, 0xFF, 0x00, 0x01]) (start []) = some ⟨.ok, some (.u16 0xFFFE)⟩ ∧
    answer (.csum [0x12, 0x34, 0x56]) (start []) = some ⟨.ok, some (.u16 0x97CB)⟩ := by decide

/-- V14 and V11: no self-verification at an odd length; an IPv4 header. -/
theorem test_csum_odd_and_header :
    answer (.csum [0x12, 0x34, 0x56, 0x97, 0xCB]) (start []) = some ⟨.ok, some (.u16 0xCC33)⟩ ∧
    answer (.csum [0x45, 0, 0, 0x73, 0x1C, 0x46, 0x40, 0, 0x40, 0x06, 0, 0, 0xC0, 0xA8, 0, 1, 0xC0, 0xA8, 0, 0xC7])
      (start []) = some ⟨.ok, some (.u16 0x9C26)⟩ := by decide

/-- V1, and V17's 13 bytes. -/
theorem test_ethDec : answer (.ethDec eth1) (start []) = some ⟨.ok, some (.ethernetFrame frame1)⟩ ∧
    answer (.ethDec (eth1.take 13)) (start []) = some ⟨.formatError, none⟩ := by decide

/-- V1, the other way. -/
theorem test_ethEnc : answer (.ethEnc frame1) (start []) = some ⟨.ok, some (.bytes eth1)⟩ := by decide

/-- V16, and V18's 19 bytes. -/
theorem test_ip4Dec : answer (.ip4Dec ip16) (start []) = some ⟨.ok, some (.ipv4Header header16)⟩ ∧
    answer (.ip4Dec (ip16.take 19)) (start []) = some ⟨.formatError, none⟩ := by decide

/-- V16, the other way. -/
theorem test_ip4Enc : answer (.ip4Enc header16) (start []) = some ⟨.ok, some (.bytes ip16)⟩ := by decide

/-- V21, and V22's 19 bytes. -/
theorem test_tcpDec : answer (.tcpDec tcp21) (start []) = some ⟨.ok, some (.tcpSegment segment21)⟩ ∧
    answer (.tcpDec (tcp21.take 19)) (start []) = some ⟨.formatError, none⟩ := by decide

/-- V21, the other way: byte 12 is F1, bytes 16 to 19 are 0. -/
theorem test_tcpEnc : answer (.tcpEnc segment21) (start []) = some ⟨.ok, some (.bytes
    [0x00, 0x50, 0xC3, 0x50, 0xFF, 0xFF, 0xFF, 0xFF, 0x80, 0, 0, 0, 0xF1, 0xFF, 0, 0, 0, 0, 0, 0])⟩ := by decide

/-- V24 and V26. -/
theorem test_tcpCsum : answer (.tcpCsum ipC ipD seg0) (start []) = some ⟨.ok, some (.u16 0x05E1)⟩ ∧
    answer (.tcpCsum ipC ipD []) (start []) = some ⟨.ok, some (.u16 0x7CA5)⟩ := by decide

/-- V27 and V29. -/
theorem test_tcpSeal : answer (.tcpSeal ipC ipD seg0) (start []) = some ⟨.ok, some (.bytes seg0Sealed)⟩ ∧
    answer (.tcpSeal ipC ipD (seg0.take 19)) (start []) = some ⟨.formatError, none⟩ := by decide

/-- V31: a stale checksum field is zeroed first, and an odd length seals to C2 09. -/
theorem test_tcpSeal_odd : (run (.tcpSeal ipC ipD (seg0Sealed ++ [0x68, 0x65, 0x6C, 0x6C, 0x6F])) (start [])).map
    (fun t => t.response) = some (some ⟨.ok, some (.bytes ([0x12, 0x34, 0x00, 0x50, 1, 2, 3, 4, 5, 6, 7, 8, 0x50,
      0x18, 0x04, 0x00, 0xC2, 0x09, 0, 0] ++ [0x68, 0x65, 0x6C, 0x6C, 0x6F]))⟩) := by decide

/-- V40. -/
theorem test_onSyn : answer (.onSyn syn0 ipB 40000) (start [some 0x12345678]) =
      some ⟨.ok, some (.tcpSegment segment20)⟩ ∧
    after (.onSyn syn0 ipB 40000) (start [some 0x12345678]) = some (received.conn, false) := by decide

/-- V45: a failed draw sets FATAL and writes nothing else. V43: no draw outside LISTEN. -/
theorem test_onSyn_fails : after (.onSyn syn0 ipB 40000) (start [none]) = some ((start []).conn, true) ∧
    (run (.onSyn syn0 ⟨10, 0, 0, 9⟩ 1) { established with entropy := [none] }).map (fun t => (t.draws, t.response)) =
      some (0, some ⟨.protocolMismatch, none⟩) := by decide

/-- V42 and V41. -/
theorem test_onAck : after (.onAck (ack0 0x12345679)) received = some (established.conn, false) ∧
    answer (.onAck (ack0 0x12345678)) received = some ⟨.protocolMismatch, none⟩ := by decide

/-- V44: the counter wraps. -/
theorem test_onAck_wraps :
    (run (.onAck (ack0 0)) { received with conn := { received.conn with sendSeq := .written 0xFFFFFFFF } }).map
      (fun t => (t.conn.state, t.conn.sendSeq)) = some (.established, .written 0) := by decide

/-- V50: the port, SYN with ACK, NS/CWR/ECE/URG/PSH. -/
theorem test_dispatch :
    answer (.dispatch { syn0 with dstPort := 8081 } ipB) (start []) = some ⟨.droppedPort, none⟩ ∧
    answer (.dispatch { syn0 with flags := 0x012 } ipB) (start [some 0x12345678]) =
      some ⟨.ok, some (.tcpSegment segment20)⟩ ∧
    answer (.dispatch { syn0 with flags := 0x1E8 } ipB) (start []) = some ⟨.unhandledFlags, none⟩ := by decide

/-- V51: neither the remote address nor the remote port is compared. -/
theorem test_dispatch_ack : after (.dispatch ⟨5555, 8080, 0, 0x12345679, 5, 0x018, 0⟩ ⟨10, 9, 9, 9⟩) received =
    some (established.conn, false) := by decide

/-- P1 step 2 and V60: the reply, with both checksums, from IHL 5 and from IHL 6. -/
theorem test_rxFrame_replies :
    answer (.rxFrame frameSyn) (start [some 0x12345678]) = some ⟨.ok, some (.bytes replySynAck)⟩ ∧
    answer (.rxFrame frameSynIhl6) (start [some 0x12345678]) = some ⟨.ok, some (.bytes replySynAck)⟩ := by decide

/-- V60: 53, 33 and 13 bytes. P1 step 3. -/
theorem test_rxFrame_no_reply :
    ([53, 33, 13].map fun n => answer (.rxFrame (frameSyn.take n)) (start [])) =
      [some ⟨.formatError, none⟩, some ⟨.formatError, none⟩, some ⟨.formatError, none⟩] ∧
    answer (.rxFrame frameSyn) received = some ⟨.protocolMismatch, none⟩ := by decide

/-- V70, and FATAL (V45). -/
theorem test_connRead : answer .connRead (start []) = some ⟨.ok, some (.connView
      ⟨0, ipA, 8080, .unwritten, .unwritten, .unwritten, .unwritten, .unwritten⟩)⟩ ∧
    answer .connRead dead = some ⟨.fatalEntropy, none⟩ := by decide

/-- V71 and V72. -/
theorem test_reserved :
    ([0x00, 0x0A, 0x0F, 0x14, 0x1F, 0x21, 0xFF].all fun c : Byte =>
      decide (answer (.reserved c) (start []) = some ⟨.illegalCommand, none⟩)) = true ∧
    answer (.reserved 0x00) dead = some ⟨.fatalEntropy, none⟩ := by decide

/-- R303's spellings. -/
theorem test_written_form :
    textOfCommand (encode (.tcpCsum ipA ipB [0xAA, 0x0B])) =
      ("TCP_CSUM 10.0.0.1, 10.0.0.2, h".toList ++ ['"'] ++ "AA 0B".toList ++ ['"']) ∧
    textOfOutcome ⟨.droppedPort, none⟩ = "-> DROPPED_PORT, none".toList := by decide

/-- R900: a second reset samples the local address and port anew and keeps the other parameters. -/
theorem test_reset_samples : ∃ t, step { established with inputs := [.reset ipD 9090] } = .next t ∧
    t.conn = ⟨.listen, ipD, 9090, .unwritten, .unwritten, .unwritten, .unwritten, .unwritten⟩ ∧
    t.cfg = { cfg0 with localIP := ipD, localPort := 9090 } := ⟨_, rfl, rfl, rfl⟩

/-! ### Witnesses: values that meet the hypotheses of each obligation, at the ends of their ranges -/

/-- The command `c`, issued in `s`. -/
def issued (c : Command) (s : State) : State := { s with inputs := [.command c] }

/-- Reset, asserted in `s` with another P_LOCAL_IP and P_LOCAL_PORT than before. -/
def reset (s : State) : State := { s with inputs := [.reset ipB 9090] }

/-- SYN_RECEIVED with the counter UNWRITTEN, which no run reaches (R118). -/
def unreachable : State := { received with conn := { received.conn with sendSeq := .unwritten } }

/-- A state R653 leaves without transitions. -/
def closing (st : ConnState) : State := { received with conn := { received.conn with state := st } }

theorem admits_start (e : List (Option U32)) (n : Nat) : Admits (start e) n := fun _ h => by cases h
theorem admits_received (n : Nat) : Admits received n := fun _ h => by cases h
theorem admits_small : Admits small 54 := fun _ h => by cases h; exact Nat.le_refl 54
theorem tooLong_small : TooLong small 55 := ⟨54, rfl, by decide⟩

theorem reset_meets_inv : (start []).Inv :=
  ⟨.inl rfl, rfl, rfl, fun _ => ⟨rfl, rfl, rfl, rfl, rfl⟩, fun h => absurd rfl h, fun _ => rfl, rfl⟩

theorem received_meets_inv : received.Inv :=
  ⟨.inr (.inl rfl), rfl, rfl, fun h => (by cases h), fun _ => ⟨_, _, _, _, rfl, rfl, rfl, rfl, rfl⟩,
    fun h => (by cases h), rfl⟩

theorem test_wit_ReservedCodesReturnIllegalCommand :
    (∀ c ∈ ([0x00, 0x0A, 0x0F, 0x14, 0x1F, 0x21, 0xFF] : List Byte), Reserved c) ∧
    (∀ c ∈ ([0x01, 0x09, 0x10, 0x13, 0x20] : List Byte), ¬ Reserved c) ∧
    (issued ⟨0x00, []⟩ (start [])).inputs = [.command ⟨0x00, []⟩] ∧ (start []).fatal = false ∧
    dead.fatal = true := by
  simp [Reserved, issued, start, State.resetWith, dead]

theorem test_wit_DecodeAndEncodeAgree :
    (Instr.csum [1]).wf = true ∧ (Instr.reserved 0xFF).wf = true ∧
    decode ⟨0x20, []⟩ = .ok .connRead ∧ ¬ Reserved 0x20 ∧ decode ⟨0xFF, [.u16 7]⟩ = .ok (.reserved 0xFF) :=
  ⟨rfl, rfl, rfl, by simp [Reserved], rfl⟩

theorem test_wit_WrongOperandsAreRejected :
    (issued ⟨0x01, []⟩ (start [])).inputs = [.command ⟨0x01, []⟩] ∧
    decode ⟨0x01, []⟩ = .error (.operandTypes .csum) ∧ (issued ⟨0x01, []⟩ (start [])).fatal = false ∧
    (issued ⟨0x01, []⟩ dead).fatal = true := ⟨rfl, rfl, rfl, rfl⟩

theorem test_wit_StepRunsTheDecodedCommand :
    (issued ⟨0x20, []⟩ (start [])).inputs = [.command ⟨0x20, []⟩] ∧ decode ⟨0x20, []⟩ = .ok .connRead := ⟨rfl, rfl⟩

theorem test_wit_IdleStepHoldsTheState : (start []).inputs = [] := rfl

theorem test_wit_ResetLeavesTheResetValues : (reset established).inputs = [.reset ipB 9090] := rfl

theorem test_wit_OnlyResetReturnsToListen :
    (∃ t, step (reset established) = .next t ∧ (reset established).conn.state ≠ .listen ∧
      t.conn.state = .listen) ∧
    (∃ t, step (reset dead) = .next t ∧ (reset dead).fatal = true ∧ t.fatal = false) :=
  ⟨⟨_, rfl, by decide, rfl⟩, _, rfl, rfl, rfl⟩

theorem test_wit_StepUsesOneEventAndAtMostOneDraw :
    (∃ t, step (issued (encode (.onSyn syn0 ipB 40000)) (start [some 7])) = .next t ∧ t.draws = 1) ∧
    ¬ (issued (encode (.onSyn syn0 ipB 40000)) (start [some 7])).resetNext ∧
    (∃ t, step (reset established) = .next t ∧ t.cfg ≠ (reset established).cfg) :=
  ⟨⟨_, rfl, rfl⟩, (fun ⟨_, _, h⟩ => by cases h), _, rfl, by decide⟩

theorem test_wit_FatalAnswersEveryCommand :
    dead.fatal = true ∧ (issued ⟨0x20, []⟩ dead).inputs = [.command ⟨0x20, []⟩] ∧
    (reset dead).inputs = [.reset ipB 9090] ∧ ∃ t, step (reset dead) = .next t ∧ t.fatal = false := ⟨rfl, rfl, rfl, _, rfl, rfl⟩

theorem test_wit_FatalComesFromAFailedDraw :
    ∃ t, exec (.onSyn syn0 ipB 40000) (start [none]) = .next t ∧ (start [none]).fatal = false ∧ t.fatal = true ∧
      (start [none]).conn.state = .listen ∧ entropyAnswer (start [none]) = none := ⟨_, rfl, rfl, rfl, rfl, rfl⟩

theorem test_wit_NonOkCommandsWriteNoRegister :
    ∃ t, exec (.onAck (ack0 0)) (start []) = .next t ∧ t.response = some ⟨.protocolMismatch, none⟩ := ⟨_, rfl, rfl⟩

theorem test_wit_RefusedCommandsHaveNoStep :
    small.fatal = false ∧ TooLong small (List.replicate 55 (0 : Byte)).length ∧ small.cfg.linkType = .ethernet ∧
    65535 < (List.replicate 65536 (0 : Byte)).length ∧ loopback.fatal = false ∧ loopback.cfg.linkType = .other 1 :=
  ⟨rfl, tooLong_small, rfl, by rw [List.length_replicate]; omega, rfl, rfl⟩

theorem test_wit_OnlyTheSpecsRefusalsHappen :
    exec (.csum (List.replicate 55 0)) small = .refused .oversize ∧
    exec (.rxFrame []) loopback = .refused .linkType := ⟨rfl, rfl⟩

theorem test_wit_MemReadIsBigEndian : 1 + 1 ≤ [0x08, (0x00 : Byte)].length ∧ 0 + 2 ≤ [0x08, (0x00 : Byte)].length ∧
    0 + 4 ≤ [0x08, 0x00, 0x01, (0x02 : Byte)].length := by decide

theorem test_wit_MemWriteWritesOnlyItsBytes : 19 + 1 ≤ seg0.length ∧ 18 + 2 ≤ seg0.length ∧ 16 + 4 ≤ seg0.length ∧
    14 + 6 ≤ seg0.length := by decide

theorem test_wit_CsumComputesTheChecksum :
    small.fatal = false ∧ Admits small (List.replicate 54 (0 : Byte)).length ∧
    TooLong small (List.replicate 55 (0 : Byte)).length := ⟨rfl, admits_small, tooLong_small⟩

theorem test_wit_WideAccumulatorGivesTheSameChecksum :
    (start []).fatal = false ∧ Admits (start []) 4 ∧ (foldOnce^[0] (wideSum [0x12, 0x34])) < 0x10000 ∧
    ¬ (foldOnce^[0] (wideSum [0xFF, 0xFF, 0x00, 0x01])) < 0x10000 ∧
    (foldOnce^[1] (wideSum [0xFF, 0xFF, 0x00, 0x01])) < 0x10000 :=
  ⟨rfl, admits_start _ _, by decide, by decide, by decide⟩

theorem test_wit_CsumIsAllOnesOnlyForZeroBuffers : (start []).fatal = false ∧ Admits (start []) 0 :=
  ⟨rfl, admits_start _ _⟩

theorem test_wit_CsumVerifiesItself :
    (start []).fatal = false ∧ Admits (start []) 6 ∧ [0x12, 0x34, 0x56, (0x78 : Byte)].length % 2 = 0 ∧
    exec (.csum [0x12, 0x34, 0x56, 0x78]) (start []) = .next (answered (start []) .ok (some (.u16 0x9753))) :=
  ⟨rfl, admits_start _ _, rfl, rfl⟩

theorem test_wit_EthDecReadsTheHeader :
    (start []).fatal = false ∧ Admits (start []) 13 ∧ (eth1.take 13).length < 14 ∧ Admits (start []) (14 + 0) :=
  ⟨rfl, admits_start _ _, by decide, admits_start _ _⟩

theorem test_wit_EthEncWritesTheHeader : (start []).fatal = false := rfl

theorem test_wit_EthRoundTrips :
    (start []).fatal = false ∧ Admits (start []) 14 ∧
    exec (.ethEnc frame1) (start []) = .next (answered (start []) .ok (some (.bytes eth1))) ∧
    exec (.ethDec eth1) (start []) = .next (answered (start []) .ok (some (.ethernetFrame frame1))) :=
  ⟨rfl, admits_start _ _, rfl, rfl⟩

theorem test_wit_Ip4DecReadsTheHeader :
    (start []).fatal = false ∧ Admits (start []) 19 ∧ (ip16.take 19).length < 20 ∧ Admits (start []) (20 + 0) :=
  ⟨rfl, admits_start _ _, by decide, admits_start _ _⟩

theorem test_wit_Ip4EncWritesTheHeader : (start []).fatal = false := rfl

theorem test_wit_Ip4RoundTrips :
    (start []).fatal = false ∧ Admits (start []) 20 ∧
    exec (.ip4Enc header16) (start []) = .next (answered (start []) .ok (some (.bytes ip16))) ∧
    exec (.ip4Dec ip16) (start []) = .next (answered (start []) .ok (some (.ipv4Header header16))) :=
  ⟨rfl, admits_start _ _, rfl, rfl⟩

theorem test_wit_TcpDecReadsTheHeader :
    (start []).fatal = false ∧ Admits (start []) 19 ∧ (tcp21.take 19).length < 20 ∧ Admits (start []) (20 + 0) :=
  ⟨rfl, admits_start _ _, by decide, admits_start _ _⟩

theorem test_wit_TcpEncWritesTheHeader : (start []).fatal = false := rfl

theorem test_wit_TcpRecordRoundTrips :
    (start []).fatal = false ∧ Admits (start []) 20 ∧
    exec (.tcpEnc segment20) (start []) = .next (answered (start []) .ok (some (.bytes tcp20))) :=
  ⟨rfl, admits_start _ _, rfl⟩

theorem test_wit_TcpBytesRoundTripExactlyWhenUnpatched :
    (start []).fatal = false ∧
    exec (.tcpDec tcp20) (start []) = .next (answered (start []) .ok (some (.tcpSegment segment20))) ∧
    exec (.tcpDec tcp21) (start []) = .next (answered (start []) .ok (some (.tcpSegment segment21))) :=
  ⟨rfl, rfl, rfl⟩

theorem test_wit_TcpCsumCoversThePseudoHeader :
    (start []).fatal = false ∧ 65535 < (List.replicate 65536 (0 : Byte)).length ∧
    Admits (start []) (List.replicate 65535 (0 : Byte)).length ∧ (List.replicate 65535 (0 : Byte)).length ≤ 65535 :=
  ⟨rfl, by rw [List.length_replicate]; omega, admits_start _ _, by rw [List.length_replicate]⟩

theorem test_wit_TcpSealPatchesTheChecksum :
    (start []).fatal = false ∧ 65535 < (List.replicate 65536 (0 : Byte)).length ∧ Admits (start []) 20 ∧
    (seg0.take 19).length < 20 ∧ 20 ≤ seg0.length ∧ seg0.length ≤ 65535 :=
  ⟨rfl, by rw [List.length_replicate]; omega, admits_start _ _, by decide, by decide, by decide⟩

theorem test_wit_SealedSegmentsVerify :
    (start []).fatal = false ∧
    exec (.tcpSeal ipC ipD seg0) (start []) = .next (answered (start []) .ok (some (.bytes seg0Sealed))) := ⟨rfl, rfl⟩

theorem test_wit_TcpCsumIsNeverAllOnes : (start []).fatal = false ∧ Admits (start []) 0 ∧ ([] : Buffer).length ≤ 65535 :=
  ⟨rfl, admits_start _ _, by decide⟩

theorem test_wit_OnSynOpensTheConnection :
    (received.fatal = false ∧ received.conn.state ≠ .listen) ∧
    ((start [none]).fatal = false ∧ (start [none]).conn.state = .listen ∧ entropyAnswer (start [none]) = none) ∧
    ((start [some 0xFFFFFFFF]).conn.state = .listen ∧ entropyAnswer (start [some 0xFFFFFFFF]) = some 0xFFFFFFFF) :=
  ⟨⟨rfl, by decide⟩, ⟨rfl, rfl, rfl⟩, rfl, rfl⟩

theorem test_wit_OnAckEstablishesTheConnection :
    established.conn.state ≠ .synReceived ∧
    (received.fatal = false ∧ received.conn.state = .synReceived ∧ received.conn.sendSeq = .written 0x12345678) ∧
    (ack0 0x12345678).ackNum ≠ 0x12345678 + 1 ∧ (ack0 0x12345679).ackNum = 0x12345678 + 1 :=
  ⟨by decide, ⟨rfl, rfl, rfl⟩, by decide, by decide⟩

theorem test_wit_OnAckFaultsOnUnwrittenSendSeq :
    unreachable.fatal = false ∧ unreachable.conn.state = .synReceived ∧ unreachable.conn.sendSeq = .unwritten :=
  ⟨rfl, rfl, rfl⟩

theorem test_wit_UnimplementedStatesHaveNoTransitions :
    (∀ st ∈ unimplemented, (closing st).fatal = false ∧ (closing st).conn.state ∈ unimplemented) ∧
    (∃ t, exec .connRead (closing .timeWait) = .next t ∧ t.conn.state ∈ unimplemented) ∧
    (∃ t, exec (.onAck (ack0 0)) established = .next t ∧ established.conn.state ∈ .established :: unimplemented) :=
  ⟨fun _ h => ⟨rfl, h⟩, ⟨_, rfl, by decide⟩, _, rfl, by decide⟩

theorem test_wit_HandshakeRunsToEstablished :
    (start [some 0x12345678]).fatal = false ∧ (start [some 0x12345678]).conn.state = .listen ∧
    entropyAnswer (start [some 0x12345678]) = some 0x12345678 ∧
    (∀ w ∈ [ack0 0x12345678, ack0 0], w.ackNum ≠ segment20.seqNum + 1) ∧
    (ack0 0x12345679).ackNum = segment20.seqNum + 1 := ⟨rfl, rfl, rfl, by decide, by decide⟩

theorem test_wit_HandlersReadOneSegmentField :
    syn0.seqNum = ({ syn0 with flags := 0, ackNum := 9 } : TCPSegment).seqNum ∧
    (ack0 7).ackNum = ({ ack0 7 with flags := 0, seqNum := 9 } : TCPSegment).ackNum := ⟨rfl, rfl⟩

theorem test_wit_DispatchSelectsTheHandler :
    (start []).fatal = false ∧ ({ syn0 with dstPort := 8081 } : TCPSegment).dstPort ≠ (start []).conn.localPort ∧
    syn0.dstPort = (start []).conn.localPort ∧ syn0.flags.getLsbD 1 = true ∧
    (ack0 0).dstPort = (start []).conn.localPort ∧ (ack0 0).flags.getLsbD 1 = false ∧
    (ack0 0).flags.getLsbD 4 = true ∧
    ({ syn0 with flags := 0x1ED } : TCPSegment).flags.getLsbD 1 = false ∧
    ({ syn0 with flags := 0x1ED } : TCPSegment).flags.getLsbD 4 = false := by decide

theorem test_wit_DispatchCompletesTheHandshake :
    ((start [some 7]).fatal = false ∧ (start [some 7]).conn.state = .listen ∧
      entropyAnswer (start [some 7]) = some 7 ∧ syn0.dstPort = (start [some 7]).conn.localPort ∧
      syn0.flags.getLsbD 1 = true) ∧
    (received.fatal = false ∧ received.conn.state = .synReceived ∧ received.conn.sendSeq = .written 0x12345678 ∧
      (ack0 0x12345679).dstPort = received.conn.localPort ∧ (ack0 0x12345679).flags.getLsbD 1 = false ∧
      (ack0 0x12345679).flags.getLsbD 4 = true ∧ (ack0 0x12345679).ackNum = 0x12345678 + 1) := by decide

theorem parses_frameSyn : Parses frameSyn := ⟨by decide, by decide⟩

theorem test_wit_RxFrameRunsDispatch :
    (loopback.fatal = false ∧ loopback.cfg.linkType = .other 1) ∧
    (small.cfg.linkType = .ethernet ∧ TooLong small (List.replicate 55 (0 : Byte)).length ∧
      Admits small frameSyn.length) ∧
    ((start []).fatal = false ∧ (start []).cfg.linkType = .ethernet ∧ Admits (start []) 53 ∧
      ¬ Parses (frameSyn.take 53) ∧ ¬ Parses (frameSyn.take 13)) ∧
    (Parses frameSyn ∧ (∃ t, exec (.dispatch (frameSegment frameSyn) (frameSource frameSyn)) received = .next t ∧
        t.response = some ⟨.protocolMismatch, none⟩) ∧
      (∃ t r, exec (.dispatch (frameSegment frameSyn) (frameSource frameSyn)) (start [some 7]) = .next t ∧
        t.response = some ⟨.ok, some (.tcpSegment r)⟩) ∧
      Parses (frameSyn.set 47 0x10) ∧
      (∃ f, exec (.dispatch (frameSegment (frameSyn.set 47 0x10)) (frameSource (frameSyn.set 47 0x10))) unreachable =
        .fault f)) :=
  ⟨⟨rfl, rfl⟩, ⟨rfl, tooLong_small, admits_small⟩,
    ⟨rfl, rfl, admits_start _ _, fun h => absurd h.2 (by decide), fun h => absurd h.1 (by decide)⟩,
    parses_frameSyn, ⟨_, rfl, rfl⟩, ⟨_, _, rfl, rfl⟩, ⟨by decide, by decide⟩, _, rfl⟩

theorem test_wit_RxFrameAnswersASyn :
    (start [some 7]).fatal = false ∧ (start [some 7]).cfg.linkType = .ethernet ∧
    Admits (start [some 7]) frameSyn.length ∧ Parses frameSyn ∧ (start [some 7]).conn.state = .listen ∧
    entropyAnswer (start [some 7]) = some 7 ∧ (frameSegment frameSyn).dstPort = (start [some 7]).conn.localPort ∧
    (frameSegment frameSyn).flags.getLsbD 1 = true :=
  ⟨rfl, rfl, admits_start _ _, parses_frameSyn, rfl, rfl, by decide, by decide⟩

theorem test_wit_RepliesVerify : ∃ t out, exec (.rxFrame frameSyn) (start [some 7]) = .next t ∧
    t.response = some ⟨.ok, some (.bytes out)⟩ := ⟨_, _, rfl, rfl⟩

theorem test_wit_OnlyAnAcceptedSynIsAnswered : ∃ t st v, exec (.rxFrame frameSyn) (start [some 7]) = .next t ∧
    t.response = some ⟨st, some v⟩ := ⟨_, _, _, rfl, rfl⟩

theorem test_wit_RxFrameIgnoresTrailingBytes :
    Admits (start []) (frameSyn.length + [0, 0, 0, 0, 0, (0 : Byte)].length) ∧ Parses frameSyn :=
  ⟨admits_start _ _, parses_frameSyn⟩

theorem test_wit_ConnReadReturnsTheSnapshot : established.fatal = false := rfl

theorem test_wit_ReservedReturnsIllegalCommand : Reserved 0xFF ∧ (start []).fatal = false := ⟨by simp [Reserved], rfl⟩

theorem test_wit_PureCommandsOnlyAnswer :
    IsPure (.ethEnc frame1) ∧ received.fatal = (start []).fatal ∧ received.cfg = (start []).cfg ∧
    ∃ t, exec (.ethEnc frame1) (start []) = .next t := ⟨trivial, rfl, rfl, _, rfl⟩

theorem test_wit_OnlyHandlersWriteTheConnection :
    (∃ t, exec .connRead received = .next t) ∧
    (∃ t, exec (.dispatch syn0 ipB) (start [some 7]) = .next t ∧ t.conn ≠ (start [some 7]).conn) ∧
    (∃ t, exec (.rxFrame frameSyn) (start [some 7]) = .next t ∧ t.conn ≠ (start [some 7]).conn) :=
  ⟨⟨_, rfl⟩, ⟨_, rfl, by decide⟩, _, rfl, by decide⟩

theorem test_wit_OnlyHandshakeTransitions : ∃ t, exec (.onAck (ack0 0x12345679)) received = .next t ∧
    t.conn ≠ received.conn := ⟨_, rfl, by decide⟩

theorem test_wit_ResetSatisfiesTheInvariant :
    ({ cfg0 with maxBuf := some 54 } : Params).wf = true ∧ cfg0.wf = true := by decide

theorem test_wit_StepKeepsTheInvariant :
    (start []).Inv ∧ received.Inv ∧ ∃ t, step (issued ⟨0x20, []⟩ received) = .next t :=
  ⟨reset_meets_inv, received_meets_inv, _, rfl⟩

theorem test_wit_NoStepReadsAnUnwrittenRegister : received.Inv := received_meets_inv

end Sys2Proof.Tests
end

/-! The scope statements (00_scope.md): the frame of a command and of a step, the non-OK statuses, and the handshake
transitions. Each is a case analysis over `Effect` and `step_next`. -/

namespace Sys2Proof.Machine

/-- What lies around the block, under every command that answers: the parameters and the host's stream stay, and the
entropy source is asked once at most (R101, R119, R654). -/
theorem exec_frame {i : Instr} {s t : State} (h : exec i s = .next t) :
    t.cfg = s.cfg ∧ t.inputs = s.inputs ∧
      ((t.entropy = s.entropy ∧ t.draws = s.draws) ∨ (t.entropy = s.entropy.tail ∧ t.draws = s.draws + 1)) := by
  obtain ⟨-, rfl⟩ | ⟨-, he⟩ := exec_next h
  · exact ⟨rfl, rfl, .inl ⟨rfl, rfl⟩⟩
  cases he with
  | answered => exact ⟨rfl, rfl, .inl ⟨rfl, rfl⟩⟩
  | drawFailed => exact ⟨rfl, rfl, .inr ⟨rfl, rfl⟩⟩
  | synAccepted => exact ⟨rfl, rfl, .inr ⟨rfl, rfl⟩⟩
  | ackAccepted => exact ⟨rfl, rfl, .inl ⟨rfl, rfl⟩⟩

theorem resetNext_of_inputs {s : State} {ip : IPv4Addr} {port : U16} {rest : List HostEvent}
    (h : s.inputs = .reset ip port :: rest) : s.resetNext := ⟨ip, port, by rw [h]; rfl⟩

/-- Parameters that did not change are those with the local endpoint they already had. -/
theorem exists_local_of_cfg_eq {s t : State} (h : t.cfg = s.cfg) :
    ∃ ip port, t.cfg = { s.cfg with localIP := ip, localPort := port } := ⟨s.cfg.localIP, s.cfg.localPort, h⟩

/-- Settles O10: the four things a step can do, the command's own frame being `exec_frame`. -/
theorem stepUsesOneEventAndAtMostOneDraw : Obligations.StepUsesOneEventAndAtMostOneDraw := by
  intro s t h
  obtain ⟨hin, rfl⟩ | ⟨ip, port, rest, hin, rfl⟩ | ⟨c, rest, i, hin, -, hx⟩ | ⟨c, rest, hin, -, rfl⟩ := step_next h
  · exact ⟨fun _ => rfl, exists_local_of_cfg_eq rfl, by rw [hin]; rfl, .inl ⟨rfl, rfl⟩⟩
  · exact ⟨fun hn => absurd (resetNext_of_inputs hin) hn, ⟨ip, port, rfl⟩, by rw [hin]; rfl, .inl ⟨rfl, rfl⟩⟩
  · obtain ⟨hcfg, hinputs, hdraw⟩ := exec_frame hx
    exact ⟨fun _ => hcfg, exists_local_of_cfg_eq hcfg, by rw [hinputs, hin]; rfl, hdraw⟩
  · exact ⟨fun _ => rfl, exists_local_of_cfg_eq rfl, by rw [hin]; rfl, .inl ⟨rfl, rfl⟩⟩

/-- Settles O14: under FATAL the command only answers FATAL_ENTROPY; otherwise only the two accepted segments write a
register, with OK, and only the failed draw sets FATAL, with FATAL_ENTROPY. -/
theorem nonOkCommandsWriteNoRegister : Obligations.NonOkCommandsWriteNoRegister := by
  intro i s t h
  obtain ⟨-, rfl⟩ | ⟨-, he⟩ := exec_next h
  · exact ⟨.fatalEntropy, none, rfl, fun _ => ⟨rfl, rfl⟩, fun _ => rfl⟩
  cases he with
  | answered st r _ hr => exact ⟨st, r, rfl, fun hst => ⟨rfl, hr hst⟩, fun _ => rfl⟩
  | drawFailed => exact ⟨.fatalEntropy, none, rfl, fun _ => ⟨rfl, rfl⟩, fun hst => absurd rfl hst⟩
  | synAccepted _ _ _ _ _ _ _ r => exact ⟨.ok, r, rfl, fun hst => absurd rfl hst, fun _ => rfl⟩
  | ackAccepted => exact ⟨.ok, none, rfl, fun hst => absurd rfl hst, fun _ => rfl⟩

/-- Settles O54: only an accepted SYN and an accepted ACK write the Connection (R651, R652). -/
theorem onlyHandshakeTransitions : Obligations.OnlyHandshakeTransitions := by
  intro i s t h
  obtain ⟨-, rfl⟩ | ⟨-, he⟩ := exec_next h
  · exact .inl rfl
  cases he with
  | answered => exact .inl rfl
  | drawFailed => exact .inl rfl
  | synAccepted hi hl isn _ rip rport rn => exact .inr (.inl ⟨hl, hi, rip, rport, isn, rn, rfl⟩)
  | ackAccepted _ hl q hq => exact .inr (.inr ⟨hl, q, hq, rfl⟩)

end Sys2Proof.Machine

/-! The state (10_state.md): the invariant of the reachable states, who writes the Connection, and that no command needs
a register while it is UNWRITTEN. A frame's decoding comes first, in the statements' terms (`frameSegment`,
`frameSource`), so that RX_FRAME can be spoken of as DISPATCH of a segment. -/

namespace Sys2Proof.Machine

open Sys2Proof.Claims

/-! ### What a frame's headers decode to -/

theorem be16_eq_append (a b : Byte) : be16 a b = a ++ b := by
  rw [be16, ← toNat_append8, BitVec.ofNat_toNat, BitVec.setWidth_eq]

theorem be32_eq_append (a b c d : Byte) : be32 a b c d = (a ++ b : U16) ++ (c ++ d : U16) := by
  have hn : (a ++ b ++ (c ++ d : U16) : U32).toNat =
      a.toNat * 2 ^ 24 + b.toNat * 2 ^ 16 + c.toNat * 2 ^ 8 + d.toNat := by
    rw [toNat_append16, toNat_append8, toNat_append8]; omega
  rw [be32, ← hn, BitVec.ofNat_toNat, BitVec.setWidth_eq]

/-- The high half of a byte (R312, R314). -/
theorem toNat_highNibble (b : Byte) : (b.extractLsb' 4 4).toNat = b.toNat / 16 := by
  have := b.isLt
  rw [BitVec.extractLsb'_toNat, Nat.shiftRight_eq_div_pow]; omega

/-- The low half of a byte (R312). -/
theorem toNat_lowNibble (b : Byte) : (b.extractLsb' 0 4).toNat = b.toNat % 16 := by
  rw [BitVec.extractLsb'_toNat, Nat.shiftRight_zero]

/-- The 9-bit flag value as a number: NS is worth 256 (R314, R320). -/
theorem toNat_flagsOfBytes (b12 b13 : Byte) :
    (flagsOfBytes b12 b13).toNat = b12.toNat % 2 * 256 + b13.toNat := by
  rw [flagsOfBytes, BitVec.toNat_append, ← Nat.shiftLeft_add_eq_or_of_lt b13.isLt, Nat.shiftLeft_eq,
    BitVec.extractLsb'_toNat, Nat.shiftRight_zero]

/-- A byte of what follows the first `n` bytes of a buffer. -/
theorem byteAt_drop (buf : Buffer) (n k : Nat) : byteAt (buf.drop n) k = buf.getD (n + k) 0 := by
  simp [byteAt, List.getD]

/-- TCP_DEC's record of a buffer that holds a header, from its first 16 bytes (R550). -/
theorem tcpDecode_of_le {buf : Buffer} (h : 20 ≤ buf.length) : tcpDecode buf = .ok
    (segmentOf (byteAt buf 0) (byteAt buf 1) (byteAt buf 2) (byteAt buf 3) (byteAt buf 4) (byteAt buf 5)
      (byteAt buf 6) (byteAt buf 7) (byteAt buf 8) (byteAt buf 9) (byteAt buf 10) (byteAt buf 11) (byteAt buf 12)
      (byteAt buf 13) (byteAt buf 14) (byteAt buf 15)) := by
  rw [tcpDecode, if_neg (by simpa using h)]
  simp only [segmentOf, be16_eq_append, be32_eq_append, ← toNat_highNibble, ← toNat_flagsOfBytes,
    BitVec.ofNat_toNat, BitVec.setWidth_eq]
  rfl

/-- The two things the pipeline reads of a frame's IPv4 header: where the TCP header starts, and the source (R207,
R701). -/
theorem ip4Decode_frame {frame : Buffer} (h : 34 ≤ frame.length) :
    ∃ ip, ip4Decode (frame.drop 14) = .ok ip ∧ tcpOffset ip = tcpOff frame ∧ ip.src = frameSource frame := by
  refine ⟨_, if_neg (by rw [List.length_drop, Config.ip4HdrLen]; omega), ?_, ?_⟩
  · rw [tcpOffset, tcpOff, toNat_lowNibble, byteAt_drop]
  · simp only [addrAt, byteAt_drop, frameSource]

/-- The segment of a frame that holds its TCP header (R207, R550). -/
theorem tcpDecode_frame {frame : Buffer} (h : tcpOff frame + 20 ≤ frame.length) :
    tcpDecode (frame.drop (tcpOff frame)) = .ok (frameSegment frame) := by
  rw [tcpDecode_of_le (by rw [List.length_drop]; omega)]
  simp only [byteAt_drop, frameSegment]

/-- The pipeline's two ways (R701): a header is short and nothing is dispatched, or the frame's segment is dispatched
and its transaction answered. -/
theorem processFrame_cases (frame : Buffer) (s : State) :
    (¬ Parses frame ∧ processFrame frame s = .ok ⟨.formatError, none, s⟩) ∨
    (Parses frame ∧ ∃ eth, ethDecode frame = .ok eth ∧ processFrame frame s =
      (dispatchSegment (frameSegment frame) (frameSource frame) s).bind (replyTo eth)) := by
  by_cases he : frame.length < 14
  · have hd : ethDecode frame = .error .formatError := if_pos he
    exact .inl ⟨fun hp => absurd hp.1 (by omega), by simp [processFrame, hd]⟩
  have heth : ethDecode frame = .ok ⟨macAt frame 0, macAt frame 6, memRead16 frame 12⟩ := if_neg he
  by_cases hi : frame.length < 34
  · have hd : ip4Decode (frame.drop 14) = .error .formatError :=
      if_pos (by rw [List.length_drop, Config.ip4HdrLen]; omega)
    exact .inl ⟨fun hp => absurd hp.1 (by omega), by simp [processFrame, heth, hd]⟩
  obtain ⟨ip, hip, hoff, hsrc⟩ := ip4Decode_frame (Nat.le_of_not_lt hi)
  by_cases ht : frame.length < tcpOff frame + 20
  · have hd : tcpDecode (frame.drop (tcpOff frame)) = .error .formatError :=
      if_pos (by rw [List.length_drop, Config.tcpHdrLen]; omega)
    exact .inl ⟨fun hp => absurd hp.2 (by omega), by simp [processFrame, heth, hip, hoff, hd]⟩
  · have hd := tcpDecode_frame (Nat.le_of_not_lt ht)
    refine .inr ⟨⟨Nat.le_of_not_lt hi, Nat.le_of_not_lt ht⟩, _, heth, ?_⟩
    simp only [processFrame, heth, hip, hoff, hd, hsrc]
    cases dispatchSegment (frameSegment frame) (frameSource frame) s <;> rfl

/-! ### The invariant -/

/-- Where the Connection has its reset values, the invariant asks nothing more than allowed parameters (R120). -/
theorem inv_of_atReset {s : State} (hc : s.conn = Connection.atReset s.cfg) (hp : s.cfg.wf = true) : s.Inv where
  handshake := .inl (by rw [hc]; rfl)
  localIP := by rw [hc]; rfl
  localPort := by rw [hc]; rfl
  listening _ := by rw [hc]; exact ⟨rfl, rfl, rfl, rfl, rfl⟩
  connected h := absurd (by rw [hc]; rfl) h
  fatalListens _ := by rw [hc]; rfl
  params := hp

/-- The invariant speaks of the Connection, the parameters and FATAL alone, and FATAL may be set in LISTEN. -/
theorem inv_of_conn_eq {s t : State} (hs : s.Inv) (hc : t.conn = s.conn) (hp : t.cfg = s.cfg)
    (hf : t.fatal = true → s.conn.state = .listen) : t.Inv := by
  obtain ⟨hstate, hip, hport, hl, hn, -, hwf⟩ := hs
  exact ⟨by rwa [hc], by rwa [hc, hp], by rwa [hc, hp], by rwa [hc], by rwa [hc], by rwa [hc], by rwa [hp]⟩

theorem inv_with_inputs {s : State} (hs : s.Inv) (rest : List HostEvent) : State.Inv { s with inputs := rest } :=
  inv_of_conn_eq hs rfl rfl hs.fatalListens

theorem inv_answer {s : State} (hs : s.Inv) (st : Status) (r : Option Value) : (s.answer st r).Inv :=
  inv_of_conn_eq hs rfl rfl hs.fatalListens

theorem inv_drawn {s : State} (hs : s.Inv) : s.drawn.Inv := inv_of_conn_eq hs rfl rfl hs.fatalListens

/-- EntropyFailure sets FATAL, which the invariant allows in LISTEN (R654). -/
theorem inv_enterFatal {s : State} (hs : s.Inv) (hl : s.conn.state = .listen) : s.enterFatal.Inv :=
  inv_of_conn_eq hs rfl rfl fun _ => hl

/-- ON_SYN's writes leave all five remote registers written (R651). -/
theorem inv_acceptSyn {s : State} (hs : s.Inv) (hf : s.fatal = false) (rip : IPv4Addr) (rport : U16) (isn rn : U32) :
    (s.acceptSyn rip rport isn rn).Inv where
  handshake := .inr (.inl rfl)
  localIP := hs.localIP
  localPort := hs.localPort
  listening := nofun
  connected _ := ⟨rip, rport, isn, rn, rfl, rfl, rfl, rfl, rfl⟩
  fatalListens h := nomatch hf.symm.trans h
  params := hs.params

/-- ON_ACK's writes leave four of the five remote registers as ON_SYN wrote them (R652). -/
theorem inv_acceptAck {s : State} (hs : s.Inv) (hf : s.fatal = false) (hl : s.conn.state = .synReceived) (q : U32) :
    (s.acceptAck q).Inv where
  handshake := .inr (.inr rfl)
  localIP := hs.localIP
  localPort := hs.localPort
  listening := nofun
  connected _ := by
    obtain ⟨rip, rport, -, rn, hrip, hrport, -, hrn, hack⟩ := hs.connected (by rw [hl]; nofun)
    exact ⟨rip, rport, q, rn, hrip, hrport, rfl, hrn, hack⟩
  fatalListens h := nomatch hf.symm.trans h
  params := hs.params

theorem exec_keeps_inv {i : Instr} {s t : State} (hs : s.Inv) (h : exec i s = .next t) : t.Inv := by
  obtain ⟨-, rfl⟩ | ⟨hf, he⟩ := exec_next h
  · exact inv_answer hs _ _
  cases he with
  | answered => exact inv_answer hs _ _
  | drawFailed _ hl => exact inv_answer (inv_enterFatal (inv_drawn hs) hl) _ _
  | synAccepted _ _ isn _ rip rport rn => exact inv_answer (inv_acceptSyn (inv_drawn hs) hf rip rport isn rn) _ _
  | ackAccepted _ hl q => exact inv_answer (inv_acceptAck hs hf hl (q + 1)) _ _

/-- Settles O56: an idle step changes nothing, a reset leaves the reset values, a command keeps the invariant by
`exec_keeps_inv`, and a rejected transaction is only answered. -/
theorem stepKeepsTheInvariant : Obligations.StepKeepsTheInvariant := by
  intro s t hs h
  obtain ⟨-, rfl⟩ | ⟨ip, port, rest, -, rfl⟩ | ⟨c, rest, i, -, -, hx⟩ | ⟨c, rest, -, -, rfl⟩ := step_next h
  · exact hs
  · exact inv_of_atReset rfl hs.params
  · exact exec_keeps_inv (inv_with_inputs hs rest) hx
  · exact inv_answer (inv_with_inputs hs rest) _ _

/-- Settles O55: reset gives the Connection its reset values, and P_MAX_BUF of `State.reset` is unbounded. -/
theorem resetSatisfiesTheInvariant : Obligations.ResetSatisfiesTheInvariant :=
  ⟨fun _ hp => inv_of_atReset rfl hp, inv_of_atReset rfl rfl⟩

/-! ### UNWRITTEN registers -/

/-- Settles O39: ON_ACK's one faulting outcome of `handleAck_cases`. -/
theorem onAckFaultsOnUnwrittenSendSeq : Obligations.OnAckFaultsOnUnwrittenSendSeq := by
  intro s seg hf hl hq
  have hu : exec (.onAck seg) s = settle .tcpSegment (handleAck seg s) := unlessFatal_of_ready hf
  rw [hu]
  obtain ⟨hn, -⟩ | ⟨-, -, he⟩ | ⟨q, -, hw, -⟩ | ⟨q, -, hw, -⟩ := handleAck_cases seg s
  · exact absurd hl hn
  · rw [he]; rfl
  · exact nomatch hq.symm.trans hw
  · exact nomatch hq.symm.trans hw

/-- ON_ACK finds the register it needs: in SYN_RECEIVED, sendSeq holds a value (R115). -/
def AckReady (s : State) : Prop := s.conn.state = .synReceived → s.conn.sendSeq ≠ .unwritten

theorem State.Inv.ackReady {s : State} (hs : s.Inv) : AckReady s := fun hl hu => by
  obtain ⟨_, _, q, _, -, -, hq, -⟩ := hs.connected (by rw [hl]; nofun)
  exact nomatch hu.symm.trans hq

/-- The response a transaction carries was made by ON_SYN, which wrote conn.remoteIP (R651, R703). -/
theorem remoteIP_written_of_response {seg r : TCPSegment} {sip : IPv4Addr} {s : State} {t : Txn TCPSegment}
    (h : dispatchSegment seg sip s = .ok t) (hr : t.result = some r) : t.after.conn.remoteIP = .written sip := by
  obtain ⟨-, -, hn, -⟩ | ⟨-, -, rfl⟩ | ⟨isn, -, -, -, -, rfl⟩ | ⟨q, -, -, rfl⟩ := dispatchSegment_ok h
  · exact nomatch hn.symm.trans hr
  · exact nomatch hr
  · rfl
  · exact nomatch hr

/-- Building the reply to a dispatched segment never faults: it reads conn.remoteIP after ON_SYN wrote it (R703). -/
theorem replyTo_dispatched_ne_error {eth : EthernetFrame} {seg : TCPSegment} {sip : IPv4Addr} {s : State}
    {t : Txn TCPSegment} (h : dispatchSegment seg sip s = .ok t) (f : Fault) : replyTo eth t ≠ .error f := by
  unfold replyTo
  split
  · have hw := remoteIP_written_of_response h ‹_›
    simp [buildReply, hw]
  · simp

theorem next_ne_fault {t : State} (f : Fault) : (.next t : Result) ≠ .fault f := nofun

theorem refused_ne_fault {r : Refusal} (f : Fault) : (.refused r : Result) ≠ .fault f := nofun

theorem settle_ne_fault {α : Type} {tag : α → Value} {e : Except Fault (Txn α)} (h : ∀ f, e ≠ .error f) (f : Fault) :
    settle tag e ≠ .fault f := fun hs => h f (settle_fault hs)

section AckReady
variable {s : State} (hs : AckReady s)
include hs

theorem handleAck_ne_error (seg : TCPSegment) (f : Fault) : handleAck seg s ≠ .error f := by
  obtain ⟨-, he⟩ | ⟨hl, hu, -⟩ | ⟨q, -, -, -, he⟩ | ⟨q, -, -, -, he⟩ := handleAck_cases seg s
  · rw [he]; nofun
  · exact absurd hu (hs hl)
  · rw [he]; nofun
  · rw [he]; nofun

theorem dispatchSegment_ne_error (seg : TCPSegment) (sip : IPv4Addr) (f : Fault) :
    dispatchSegment seg sip s ≠ .error f := by
  obtain ⟨-, hd⟩ | ⟨-, -, hd⟩ | ⟨-, -, -, hd⟩ | ⟨-, -, -, hd⟩ := dispatchSegment_cases seg sip s
  · rw [hd]; nofun
  · rw [hd]; nofun
  · rw [hd]; exact handleAck_ne_error hs seg f
  · rw [hd]; nofun

theorem processFrame_ne_error (frame : Buffer) (f : Fault) : processFrame frame s ≠ .error f := by
  obtain ⟨-, hp⟩ | ⟨-, eth, -, hp⟩ := processFrame_cases frame s
  · rw [hp]; nofun
  rw [hp]
  cases hd : dispatchSegment (frameSegment frame) (frameSource frame) s with
  | error g => exact absurd hd (dispatchSegment_ne_error hs _ _ g)
  | ok t => exact replyTo_dispatched_ne_error hd f

/-- No command faults where ON_ACK finds the register it needs: the other commands read none, and RX_FRAME's reply
builder reads what ON_SYN has just written (R115, R118). -/
theorem exec_ne_fault (i : Instr) (f : Fault) : exec i s ≠ .fault f := by
  cases i with
  | csum buf => exact unlessFatal_ne_fault (admitBuffer_ne_fault next_ne_fault) f
  | ethDec buf => exact unlessFatal_ne_fault (admitBuffer_ne_fault next_ne_fault) f
  | ethEnc fr => exact unlessFatal_ne_fault next_ne_fault f
  | ip4Dec buf => exact unlessFatal_ne_fault (admitBuffer_ne_fault next_ne_fault) f
  | ip4Enc hd => exact unlessFatal_ne_fault next_ne_fault f
  | tcpDec buf => exact unlessFatal_ne_fault (admitBuffer_ne_fault next_ne_fault) f
  | tcpEnc seg => exact unlessFatal_ne_fault next_ne_fault f
  | tcpCsum src dst seg => exact unlessFatal_ne_fault (admitSegment_ne_fault next_ne_fault) f
  | tcpSeal src dst seg => exact unlessFatal_ne_fault (admitSegment_ne_fault next_ne_fault) f
  | onSyn seg rip rport => exact unlessFatal_ne_fault next_ne_fault f
  | onAck seg => exact unlessFatal_ne_fault (settle_ne_fault (handleAck_ne_error hs seg)) f
  | dispatch seg sip => exact unlessFatal_ne_fault (settle_ne_fault (dispatchSegment_ne_error hs seg sip)) f
  | rxFrame frame =>
    exact unlessFatal_ne_fault
      (admitLink_ne_fault (admitBuffer_ne_fault (settle_ne_fault (processFrame_ne_error hs frame)))) f
  | connRead => exact unlessFatal_ne_fault next_ne_fault f
  | reserved code => exact unlessFatal_ne_fault next_ne_fault f

end AckReady

theorem safeOutcome_of_ne_fault {o : Result} (h : ∀ f, o ≠ .fault f) : safeOutcome o := by
  cases o with
  | next t => trivial
  | fault f => exact h f rfl
  | refused r => trivial

/-- A transaction that fits no command is answered or refused (R812). -/
theorem rejectTransaction_ne_fault (s : State) (e : DecodeError) (f : Fault) : rejectTransaction s e ≠ .fault f := by
  cases e with
  | operandTypes op => exact unlessFatal_ne_fault refused_ne_fault f

/-- Settles O57: only ON_ACK's read of sendSeq can fault, and the invariant has it written in SYN_RECEIVED. -/
theorem noStepReadsAnUnwrittenRegister : Obligations.NoStepReadsAnUnwrittenRegister := by
  intro s hs
  unfold step
  split
  · trivial
  · trivial
  · obtain ⟨rest, -, rfl⟩ := nextEvent_some ‹_›
    split
    · exact safeOutcome_of_ne_fault (exec_ne_fault (inv_with_inputs hs rest).ackReady _)
    · exact safeOutcome_of_ne_fault (rejectTransaction_ne_fault _ _)

/-! ### Who writes the Connection -/

/-- What reaches ON_SYN or ON_ACK is one of the four commands of R112. -/
theorem handler_of_reaches {i : Instr} (h : reachesOnSyn i = true ∨ reachesOnAck i = true) :
    (∃ seg rip rport, i = .onSyn seg rip rport) ∨ (∃ seg, i = .onAck seg) ∨ (∃ seg sip, i = .dispatch seg sip) ∨
      (∃ frame, i = .rxFrame frame) := by
  cases i <;> simp [reachesOnSyn, reachesOnAck] at h ⊢

/-- No command writes conn.localIP or conn.localPort, and one that writes another register reaches a handler (R112). -/
theorem exec_conn {i : Instr} {s t : State} (h : exec i s = .next t) :
    t.conn.localIP = s.conn.localIP ∧ t.conn.localPort = s.conn.localPort ∧
      (t.conn = s.conn ∨ reachesOnSyn i = true ∨ reachesOnAck i = true) := by
  obtain ⟨-, rfl⟩ | ⟨-, he⟩ := exec_next h
  · exact ⟨rfl, rfl, .inl rfl⟩
  cases he with
  | answered => exact ⟨rfl, rfl, .inl rfl⟩
  | drawFailed => exact ⟨rfl, rfl, .inl rfl⟩
  | synAccepted hi => exact ⟨rfl, rfl, .inr (.inl hi)⟩
  | ackAccepted hi => exact ⟨rfl, rfl, .inr (.inr hi)⟩

/-- DISPATCH is the handler it selects, or only answers (R700). -/
theorem exec_dispatch_cases (seg : TCPSegment) (sip : IPv4Addr) (s : State) :
    exec (.dispatch seg sip) s = exec (.onSyn seg sip seg.srcPort) s ∨
    exec (.dispatch seg sip) s = exec (.onAck seg) s ∨
    ∃ st, exec (.dispatch seg sip) s = unlessFatal s (.next (s.answer st none)) := by
  have hx : exec (.dispatch seg sip) s = unlessFatal s (settle .tcpSegment (dispatchSegment seg sip s)) := rfl
  obtain ⟨-, hd⟩ | ⟨-, -, hd⟩ | ⟨-, -, -, hd⟩ | ⟨-, -, -, hd⟩ := dispatchSegment_cases seg sip s
  · exact .inr (.inr ⟨.droppedPort, by rw [hx, hd]; rfl⟩)
  · exact .inl (by rw [hx, hd]; rfl)
  · exact .inr (.inl (by rw [hx, hd]; rfl))
  · exact .inr (.inr ⟨.unhandledFlags, by rw [hx, hd]; rfl⟩)

theorem conn_eq_of_unlessFatal_answer {s t : State} {st : Status} {r : Option Value}
    (h : unlessFatal s (.next (s.answer st r)) = .next t) : t.conn = s.conn := by
  obtain ⟨-, rfl⟩ | ⟨-, hk⟩ := unlessFatal_next h
  · rfl
  · cases hk; rfl

/-- RX_FRAME leaves the Connection as it was, or as DISPATCH of the frame's segment leaves it (R701). -/
theorem exec_rxFrame_conn {frame : Buffer} {s t : State} (h : exec (.rxFrame frame) s = .next t) :
    t.conn = s.conn ∨
      ∃ u, exec (.dispatch (frameSegment frame) (frameSource frame)) s = .next u ∧ u.conn = t.conn := by
  obtain ⟨-, rfl⟩ | ⟨hf, hk⟩ := unlessFatal_next h
  · exact .inl rfl
  obtain ⟨x, hx, rfl⟩ := settle_next (admitBuffer_next (admitLink_next hk).2).2
  obtain ⟨-, hp⟩ | ⟨-, eth, -, hp⟩ := processFrame_cases frame s
  · rw [hp] at hx; cases hx; exact .inl rfl
  rw [hp] at hx
  cases hd : dispatchSegment (frameSegment frame) (frameSource frame) s with
  | error f => rw [hd] at hx; cases hx
  | ok y =>
    rw [hd] at hx
    obtain ⟨-, hafter, -⟩ := replyTo_ok hx
    have hu : exec (.dispatch (frameSegment frame) (frameSource frame)) s =
        .next (y.after.answer y.status (y.result.map .tcpSegment)) :=
      (unlessFatal_of_ready hf).trans (by rw [hd]; rfl)
    exact .inr ⟨_, hu, by rw [answer_conn, answer_conn, hafter]⟩

/-- Settles O53: `exec_conn` for every command, `exec_dispatch_cases` and `exec_rxFrame_conn` for the two that select a
handler. -/
theorem onlyHandlersWriteTheConnection : Obligations.OnlyHandlersWriteTheConnection := by
  intro i s t h
  obtain ⟨hip, hport, hconn⟩ := exec_conn h
  refine ⟨hip, hport, fun hsyn hack hdis hrx => ?_, ?_, ?_⟩
  · refine hconn.resolve_right fun hr => ?_
    obtain ⟨seg, rip, rport, hi⟩ | ⟨seg, hi⟩ | ⟨seg, sip, hi⟩ | ⟨frame, hi⟩ := handler_of_reaches hr
    · exact hsyn seg rip rport hi
    · exact hack seg hi
    · exact hdis seg sip hi
    · exact hrx frame hi
  · rintro seg sip rfl hne
    obtain he | he | ⟨st, he⟩ := exec_dispatch_cases seg sip s
    · exact .inl (he.symm.trans h)
    · exact .inr (he.symm.trans h)
    · exact absurd (conn_eq_of_unlessFatal_answer (he.symm.trans h)) hne
  · rintro frame rfl hne
    exact (exec_rxFrame_conn h).resolve_left hne

end Sys2Proof.Machine

/-! Memory (20_memory.md): what the memory primitives read and write byte by byte, which operands are refused, and what
the pure commands and RX_FRAME do not look at. -/

namespace Sys2Proof.Machine

open Sys2Proof.Claims

/-! ### The step and the refusals -/

theorem nextEvent_of_inputs {s : State} {e : HostEvent} {rest : List HostEvent} (h : s.inputs = e :: rest) :
    nextEvent s = some (e, { s with inputs := rest }) := by
  simp [nextEvent, h]

/-- Settles O6: the next event is the command, and its decoding selects the arm of `step`. -/
theorem stepRunsTheDecodedCommand : Obligations.StepRunsTheDecodedCommand := by
  intro s c rest i hin hdec
  simp only [step, nextEvent_of_inputs hin, hdec]

theorem oversize_of_tooLong {s : State} {n : Nat} (h : TooLong s n) : oversize s.cfg n = true := by
  obtain ⟨m, hm, hlt⟩ := h
  simp [oversize, hm, hlt]

theorem oversize_of_admits {s : State} {n : Nat} (h : Admits s n) : oversize s.cfg n = false :=
  (oversize_eq_false_iff _ _).mpr h

theorem admitBuffer_of_oversize {s : State} {n : Nat} {k : Result} (h : oversize s.cfg n = true) :
    admitBuffer s n k = .refused .oversize := if_pos h

theorem admitSegment_of_oversize {s : State} {n : Nat} {k : Result} (h : oversizeSegment s.cfg n = true) :
    admitSegment s n k = .refused .oversize := if_pos h

theorem admitLink_of_other {s : State} {n : Nat} {k : Result} (h : s.cfg.linkType = .other n) :
    admitLink s k = .refused .linkType := by simp [admitLink, h]

theorem oversizeSegment_of_tooLong {s : State} {n : Nat} (h : TooLong s n) : oversizeSegment s.cfg n = true := by
  simp [oversizeSegment, oversize_of_tooLong h]

/-- A segment whose length does not fit the pseudo-header's 16-bit field is refused under any P_MAX_BUF (R210). -/
theorem oversizeSegment_of_lt (p : Params) {n : Nat} (h : 65535 < n) : oversizeSegment p n = true := by
  simp [oversizeSegment, Config.maxSegment, h]

/-- A command that admits its buffer after the FATAL test is refused when the buffer is too long. -/
theorem refusesTooLong_of_admitBuffer {i : Instr} {n : Nat} {k : State → Result}
    (h : ∀ s, exec i s = unlessFatal s (admitBuffer s n (k s))) : RefusesTooLong i n := fun s hf hn => by
  rw [h, unlessFatal_of_ready hf, admitBuffer_of_oversize (oversize_of_tooLong hn)]

/-- What admits its segment after the FATAL test is refused when the segment is over either bound. -/
theorem refused_of_admitSegment {s : State} {n : Nat} {k : Result} (hf : s.fatal = false)
    (hn : oversizeSegment s.cfg n = true) : unlessFatal s (admitSegment s n k) = .refused .oversize := by
  rw [unlessFatal_of_ready hf, admitSegment_of_oversize hn]

/-- Settles O15: after the FATAL test each command admits its operand, and RX_FRAME the link before its frame. -/
theorem refusedCommandsHaveNoStep : Obligations.RefusedCommandsHaveNoStep := by
  refine ⟨fun _ => refusesTooLong_of_admitBuffer fun _ => rfl, fun _ => refusesTooLong_of_admitBuffer fun _ => rfl,
    fun _ => refusesTooLong_of_admitBuffer fun _ => rfl, fun _ => refusesTooLong_of_admitBuffer fun _ => rfl,
    ?tcpCsum, ?tcpSeal, ?segment, ?frame, ?link⟩
  case tcpCsum => exact fun src dst seg s hf hn => refused_of_admitSegment hf (oversizeSegment_of_tooLong hn)
  case tcpSeal => exact fun src dst seg s hf hn => refused_of_admitSegment hf (oversizeSegment_of_tooLong hn)
  case segment =>
    exact fun src dst seg s hf hn => ⟨refused_of_admitSegment hf (oversizeSegment_of_lt _ hn),
      refused_of_admitSegment hf (oversizeSegment_of_lt _ hn)⟩
  case frame =>
    intro frame s hf hl hn
    exact (unlessFatal_of_ready hf).trans
      ((admitLink_of_ethernet hl).trans (admitBuffer_of_oversize (oversize_of_tooLong hn)))
  case link => exact fun frame s n hf hl => (unlessFatal_of_ready hf).trans (admitLink_of_other hl)

/-! ### The memory primitives -/

/-- Settles O17: `memRead16_toNat` and `memRead32_toNat`, a byte being read at its index. -/
theorem memReadIsBigEndian : Obligations.MemReadIsBigEndian := by
  have h16 (buf : Buffer) (off : Nat) :
      (memRead16 buf off).toNat = (buf.getD off 0).toNat * 2 ^ 8 + (buf.getD (off + 1) 0).toNat :=
    memRead16_toNat buf off
  refine fun buf off => ⟨fun _ => rfl, fun _ => h16 buf off, fun _ => ?_⟩
  rw [memRead32_toNat, h16, h16, show off + 2 + 1 = off + 3 from rfl]
  omega

theorem hi_eq_extract (v : U16) : hi v = v.extractLsb' 8 8 := by
  rw [hi, ← Nat.shiftRight_eq_div_pow v.toNat 8]; rfl

theorem lo_eq_extract (v : U16) : lo v = v.extractLsb' 0 8 := by
  apply BitVec.eq_of_toNat_eq
  simp [lo, BitVec.extractLsb'_toNat]

/-- The big-endian bytes of a 32-bit value are those of its two halves (R202). -/
theorem bytes32_eq (v : U32) : bytes32 v =
    [hi (v.extractLsb' 16 16), lo (v.extractLsb' 16 16), hi (v.extractLsb' 0 16), lo (v.extractLsb' 0 16)] := by
  have h := v.isLt
  simp only [bytes32, hi, lo, BitVec.extractLsb'_toNat, Nat.shiftRight_eq_div_pow, List.cons.injEq, and_true]
  refine ⟨?_, ?_, ?_, ?_⟩ <;> congr 1 <;> omega

/-- Four bytes written one after the other, read back: each at its place, and every other byte as it was (R204). -/
theorem byteAt_memWrite8_four {buf : Buffer} {off : Nat} (b0 b1 b2 b3 : Byte) (h : off + 4 ≤ buf.length) (k : Nat) :
    byteAt (memWrite8 (memWrite8 (memWrite8 (memWrite8 buf off b0) (off + 1) b1) (off + 2) b2) (off + 3) b3) k =
      if off ≤ k ∧ k < off + 4 then [b0, b1, b2, b3].getD (k - off) 0 else byteAt buf k := by
  rw [byteAt_memWrite8 _ _ _ _ (by simp only [length_memWrite8]; omega),
    byteAt_memWrite8 _ _ _ _ (by simp only [length_memWrite8]; omega),
    byteAt_memWrite8 _ _ _ _ (by simp only [length_memWrite8]; omega), byteAt_memWrite8 _ _ _ _ (by omega)]
  by_cases hk : off ≤ k ∧ k < off + 4
  · obtain ⟨j, rfl⟩ := Nat.exists_eq_add_of_le hk.1
    have hj : j < 4 := by omega
    interval_cases j <;> simp
  · rw [if_neg hk, if_neg (by omega), if_neg (by omega), if_neg (by omega), if_neg (by omega)]

/-- A run of bytes within a buffer, byte by byte (R204). -/
theorem take_drop_eq_map_byteAt {buf : Buffer} {off n : Nat} (h : off + n ≤ buf.length) :
    (buf.drop off).take n = (List.range n).map fun k => byteAt buf (off + k) := by
  apply List.ext_getElem
  · simp; omega
  · intro k h1 h2
    have hk : off + k < buf.length := by simp at h1; omega
    simp [byteAt, List.getD, hk]

/-- Settles O18: each write is one, two or four bytes written in turn, and a sequence is read byte by byte. -/
theorem memWriteWritesOnlyItsBytes : Obligations.MemWriteWritesOnlyItsBytes := by
  intro buf off
  refine ⟨fun v h => ⟨length_memWrite8 .., fun k => byteAt_memWrite8 buf off k v h⟩,
    fun v h => ⟨length_memWrite16 .., fun k => ?w16⟩, fun v h => ⟨length_memWrite32 .., fun k => ?w32⟩,
    fun a h => ⟨length_writeAddr .., byteAt_memWrite8_four a.b0 a.b1 a.b2 a.b3 h⟩,
    fun h => (take_drop_eq_map_byteAt h).symm, fun h => (take_drop_eq_map_byteAt h).symm⟩
  case w16 =>
    rw [hi_eq_extract, lo_eq_extract]
    exact byteAt_memWrite16 buf off k v h
  case w32 =>
    rw [bytes32_eq]
    simp only [hi_eq_extract, lo_eq_extract]
    exact byteAt_memWrite8_four _ _ _ _ h k

/-! ### The pure commands -/

/-- A meaning that is the same refusal, or the same answer and nothing else, in every state with this FATAL bit and
these parameters. -/
def AnswersAlike (fatal : Bool) (p : Params) (k : State → Result) : Prop :=
  (∃ r, ∀ s : State, s.fatal = fatal → s.cfg = p → k s = .refused r) ∨
  (∃ st v, ∀ s : State, s.fatal = fatal → s.cfg = p → k s = .next (s.answer st v))

section AnswersAlike
variable {fatal : Bool} {p : Params} {k : State → Result}

theorem answersAlike_answer (st : Status) (v : Option Value) : AnswersAlike fatal p fun s => .next (s.answer st v) :=
  .inr ⟨st, v, fun _ _ _ => rfl⟩

theorem answersAlike_answerDecoded (e : Except Status Value) :
    AnswersAlike fatal p fun s => .next (s.answerDecoded e) := by
  cases e with
  | ok v => exact answersAlike_answer .ok (some v)
  | error st => exact answersAlike_answer st none

theorem answersAlike_refused (r : Refusal) : AnswersAlike fatal p fun _ => .refused r :=
  .inl ⟨r, fun _ _ _ => rfl⟩

/-- Only the meaning on the states with this FATAL bit and these parameters matters. -/
theorem AnswersAlike.congr {k' : State → Result} (hk : AnswersAlike fatal p k)
    (h : ∀ s, s.fatal = fatal → s.cfg = p → k' s = k s) : AnswersAlike fatal p k' := by
  obtain ⟨r, hr⟩ | ⟨st, v, hv⟩ := hk
  · exact .inl ⟨r, fun s hf hp => (h s hf hp).trans (hr s hf hp)⟩
  · exact .inr ⟨st, v, fun s hf hp => (h s hf hp).trans (hv s hf hp)⟩

/-- The FATAL test keeps answers alike: it looks at FATAL alone (R811). -/
theorem AnswersAlike.unlessFatal (hk : AnswersAlike fatal p k) : AnswersAlike fatal p fun s => unlessFatal s (k s) := by
  cases fatal with
  | true => exact (answersAlike_answer .fatalEntropy none).congr fun s hf _ => unlessFatal_of_fatal hf
  | false => exact hk.congr fun s hf _ => unlessFatal_of_ready hf

/-- The size checks keep answers alike: they look at the parameters alone (R210). -/
theorem AnswersAlike.admitBuffer (hk : AnswersAlike fatal p k) (n : Nat) :
    AnswersAlike fatal p fun s => admitBuffer s n (k s) := by
  cases ho : oversize p n with
  | true => exact (answersAlike_refused .oversize).congr fun s _ hp => admitBuffer_of_oversize (by rw [hp, ho])
  | false => exact hk.congr fun s _ hp => admitBuffer_of_admitted (by rw [hp, ho])

theorem AnswersAlike.admitSegment (hk : AnswersAlike fatal p k) (n : Nat) :
    AnswersAlike fatal p fun s => admitSegment s n (k s) := by
  cases ho : oversizeSegment p n with
  | true => exact (answersAlike_refused .oversize).congr fun s _ hp => admitSegment_of_oversize (by rw [hp, ho])
  | false => exact hk.congr fun s _ hp => admitSegment_of_admitted (by rw [hp, ho])

/-- A pure command is determined by FATAL and the parameters (R212). -/
theorem exec_answersAlike_of_isPure {i : Instr} (hi : IsPure i) : AnswersAlike fatal p (exec i) := by
  cases i with
  | csum buf => exact ((answersAlike_answer _ _).admitBuffer _).unlessFatal
  | ethDec buf => exact ((answersAlike_answerDecoded _).admitBuffer _).unlessFatal
  | ethEnc f => exact (answersAlike_answer _ _).unlessFatal
  | ip4Dec buf => exact ((answersAlike_answerDecoded _).admitBuffer _).unlessFatal
  | ip4Enc h => exact (answersAlike_answer _ _).unlessFatal
  | tcpDec buf => exact ((answersAlike_answerDecoded _).admitBuffer _).unlessFatal
  | tcpEnc seg => exact (answersAlike_answer _ _).unlessFatal
  | tcpCsum src dst seg => exact ((answersAlike_answer _ _).admitSegment _).unlessFatal
  | tcpSeal src dst seg => exact ((answersAlike_answerDecoded _).admitSegment _).unlessFatal
  | onSyn | onAck | dispatch | rxFrame | connRead | reserved => exact hi.elim

end AnswersAlike

/-- Where one state's outcome is a next state, it is an answer, and every state with its FATAL bit and parameters gets
the same. -/
theorem AnswersAlike.of_next {s t : State} {k : State → Result} (hk : AnswersAlike s.fatal s.cfg k)
    (h : k s = .next t) : ∃ st v, t = s.answer st v ∧
      ∀ s' : State, s'.fatal = s.fatal → s'.cfg = s.cfg → k s' = .next (s'.answer st v) := by
  obtain ⟨r, hr⟩ | ⟨st, v, hv⟩ := hk
  · exact nomatch h.symm.trans (hr s rfl rfl)
  · exact ⟨st, v, Host.Outcome.next.inj (h.symm.trans (hv s rfl rfl)), hv⟩

/-- Settles O52: both parts are `AnswersAlike.of_next` for a pure command. -/
theorem pureCommandsOnlyAnswer : Obligations.PureCommandsOnlyAnswer := by
  intro i hi
  constructor
  · intro s t h
    obtain ⟨st, v, ht, -⟩ := (exec_answersAlike_of_isPure hi).of_next h
    exact ⟨st, v, ht⟩
  · intro s s' t hf hp h
    obtain ⟨st, v, rfl, hv⟩ := (exec_answersAlike_of_isPure hi).of_next h
    exact ⟨_, hv s' hf hp, rfl⟩

/-! ### Bytes after the TCP header -/

section Trailing
variable {frame : Buffer} (pad : Buffer)

/-- The first 14 bytes decide what ETH_DEC reads (R450). -/
theorem ethDecode_append (h : 14 ≤ frame.length) : ethDecode (frame ++ pad) = ethDecode frame := by
  have hb (k : Nat) (hk : k < 14) : byteAt (frame ++ pad) k = byteAt frame k :=
    List.getD_append _ _ _ _ (by omega)
  rw [ethDecode, if_neg (by rw [List.length_append, Config.ethHdrLen]; omega), ethDecode,
    if_neg (by rw [Config.ethHdrLen]; omega)]
  simp [macAt, memRead16, hb]

theorem tcpOff_append (h : 34 ≤ frame.length) : tcpOff (frame ++ pad) = tcpOff frame := by
  rw [tcpOff, List.getD_append _ _ _ _ (by omega), tcpOff]

theorem frameSource_append (h : 34 ≤ frame.length) : frameSource (frame ++ pad) = frameSource frame := by
  have hb (k : Nat) (hk : k < 34) : (frame ++ pad).getD k 0 = frame.getD k 0 :=
    List.getD_append _ _ _ _ (by omega)
  simp only [frameSource, hb, Nat.reduceLT]

theorem parses_append (h : Parses frame) : Parses (frame ++ pad) := by
  obtain ⟨h34, hoff⟩ := h
  rw [Parses, tcpOff_append pad h34, List.length_append]
  omega

theorem frameSegment_append (h : Parses frame) : frameSegment (frame ++ pad) = frameSegment frame := by
  obtain ⟨h34, hoff⟩ := h
  have hb (k : Nat) (hk : k < 20) : (frame ++ pad).getD (tcpOff frame + k) 0 = frame.getD (tcpOff frame + k) 0 :=
    List.getD_append _ _ _ _ (by omega)
  simp only [frameSegment, tcpOff_append pad h34, hb, Nat.reduceLT]

/-- The pipeline of a frame that parses reads nothing after the TCP header (R208). -/
theorem processFrame_append (h : Parses frame) (s : State) : processFrame (frame ++ pad) s = processFrame frame s := by
  obtain ⟨hn, -⟩ | ⟨-, eth, heth, hp⟩ := processFrame_cases frame s
  · exact absurd h hn
  obtain ⟨hn, -⟩ | ⟨-, eth', heth', hp'⟩ := processFrame_cases (frame ++ pad) s
  · exact absurd (parses_append pad h) hn
  obtain rfl : eth' = eth := by
    rw [ethDecode_append pad (by have := h.1; omega), heth] at heth'
    exact (Except.ok.inj heth').symm
  rw [hp', hp, frameSegment_append pad h, frameSource_append pad h.1]

end Trailing

/-- RX_FRAME of an admitted frame is the pipeline behind the FATAL and link tests (R701, R811). -/
theorem exec_rxFrame_of_admits {frame : Buffer} {s : State} (h : Admits s frame.length) :
    exec (.rxFrame frame) s = unlessFatal s (admitLink s (settle .bytes (processFrame frame s))) := by
  have hx : exec (.rxFrame frame) s = unlessFatal s (admitLink s (admitBuffer s frame.length
      (settle .bytes (processFrame frame s)))) := rfl
  rw [hx, admitBuffer_of_admitted (oversize_of_admits h)]

/-- Settles O49: both frames are admitted, and `processFrame_append`. -/
theorem rxFrameIgnoresTrailingBytes : Obligations.RxFrameIgnoresTrailingBytes := by
  intro s frame pad hn h
  have hlong : Admits s (frame ++ pad).length := by rwa [List.length_append]
  have hshort : Admits s frame.length := fun m hm => Nat.le_of_add_right_le (hn m hm)
  rw [exec_rxFrame_of_admits hlong, exec_rxFrame_of_admits hshort, processFrame_append pad h]

end Sys2Proof.Machine

/-! Encoding (30_encoding.md): which codes are reserved, that decoding and encoding a transaction are inverse to each
other, and what a step makes of a reserved code and of operands that fit no command. -/

namespace Sys2Proof.Machine

open Sys2Proof.Claims

/-! ### The codes -/

theorem isReservedCode_iff (code : Byte) : isReservedCode code = true ↔ Reserved code := by
  have hlt := code.isLt
  simp only [isReservedCode, Reserved, Bool.or_eq_true, Bool.and_eq_true, beq_iff_eq, decide_eq_true_eq]
  omega

/-- The codes the table of R301 does not hold are those R302 reserves: a check of each of the 256 codes. -/
theorem isReservedCode_of_opOfCode_eq_none :
    ∀ code : Byte, opOfCode code = none → isReservedCode code = true := by decide

theorem opOfCode_eq_none_iff (code : Byte) : opOfCode code = none ↔ Reserved code := by
  rw [← isReservedCode_iff]
  exact ⟨isReservedCode_of_opOfCode_eq_none code, Laws.RoundTrip.opOfCode_reserved code⟩

/-- The row of the table by which a code selects its command is that command's own. -/
theorem codeOfOp_of_opOfCode {code : Byte} {op : Op} (h : opOfCode code = some op) : codeOfOp op = code := by
  obtain ⟨row, hfind, rfl⟩ := Option.map_eq_some_iff.mp h
  have hcode : row.1 = code := beq_iff_eq.mp (List.find?_some hfind :)
  have hrows : ∀ row ∈ opTable, codeOfOp row.2 = row.1 := by decide
  exact (hrows row (List.mem_of_find?_eq_some hfind)).trans hcode

/-! ### Decode and encode -/

/-- Operands that decode are the operands of the command they decode to, and no RESERVED command is among these. -/
theorem decodeOperands_ok {op : Op} {operands : List Operand} {i : Instr}
    (h : decodeOperands op operands = .ok i) : encode i = ⟨codeOfOp op, operands⟩ ∧ i.wf = true := by
  unfold decodeOperands at h
  split at h <;> cases h <;> exact ⟨rfl, rfl⟩

theorem decode_of_reserved {c : Command} (h : Reserved c.code) : decode c = .ok (.reserved c.code) := by
  simp only [decode, (opOfCode_eq_none_iff c.code).mpr h]

/-- What decodes is a reserved code, whose operands are ignored, or the command of which it is the transaction. -/
theorem decode_ok {c : Command} {i : Instr} (h : decode c = .ok i) :
    (Reserved c.code ∧ i = .reserved c.code) ∨ (encode i = c ∧ i.wf = true) := by
  unfold decode at h
  split at h
  · cases h
    exact .inl ⟨(opOfCode_eq_none_iff c.code).mp ‹_›, rfl⟩
  · obtain ⟨henc, hwf⟩ := decodeOperands_ok h
    rw [codeOfOp_of_opOfCode ‹_›] at henc
    exact .inr ⟨henc, hwf⟩

theorem wf_of_decode {c : Command} {i : Instr} (h : decode c = .ok i) : i.wf = true := by
  obtain ⟨hres, rfl⟩ | ⟨-, hwf⟩ := decode_ok h
  · exact (isReservedCode_iff c.code).mpr hres
  · exact hwf

theorem decode_encode : ∀ i : Instr, i.wf = true → decode (encode i) = .ok i
  | .csum buf => Laws.RoundTrip.csum buf
  | .ethDec buf => Laws.RoundTrip.ethDec buf
  | .ethEnc f => Laws.RoundTrip.ethEnc f
  | .ip4Dec buf => Laws.RoundTrip.ip4Dec buf
  | .ip4Enc h => Laws.RoundTrip.ip4Enc h
  | .tcpDec buf => Laws.RoundTrip.tcpDec buf
  | .tcpEnc seg => Laws.RoundTrip.tcpEnc seg
  | .tcpCsum src dst seg => Laws.RoundTrip.tcpCsum src dst seg
  | .tcpSeal src dst seg => Laws.RoundTrip.tcpSeal src dst seg
  | .onSyn seg rip rport => Laws.RoundTrip.onSyn seg rip rport
  | .onAck seg => Laws.RoundTrip.onAck seg
  | .dispatch seg sip => Laws.RoundTrip.dispatch seg sip
  | .rxFrame frame => Laws.RoundTrip.rxFrame frame
  | .connRead => Laws.RoundTrip.connRead
  | .reserved code => Laws.RoundTrip.reserved code

/-- Settles O4: `decode_encode` one way, the two cases of `decode_ok` the other way. -/
theorem decodeAndEncodeAgree : Obligations.DecodeAndEncodeAgree := by
  refine ⟨decode_encode, fun c i h => ⟨wf_of_decode h, ?_⟩⟩
  obtain ⟨hres, rfl⟩ | ⟨henc, -⟩ := decode_ok h
  · exact ⟨rfl, absurd hres⟩
  · exact ⟨congrArg Command.code henc, fun _ => henc⟩

/-- Settles O1: each row of the table is the transaction of a well-formed command. -/
theorem codesSelectTheirCommands : Obligations.CodesSelectTheirCommands :=
  ⟨fun buf => decode_encode (.csum buf) rfl, fun buf => decode_encode (.ethDec buf) rfl,
    fun f => decode_encode (.ethEnc f) rfl, fun buf => decode_encode (.ip4Dec buf) rfl,
    fun h => decode_encode (.ip4Enc h) rfl, fun buf => decode_encode (.tcpDec buf) rfl,
    fun seg => decode_encode (.tcpEnc seg) rfl, fun src dst seg => decode_encode (.tcpCsum src dst seg) rfl,
    fun src dst seg => decode_encode (.tcpSeal src dst seg) rfl,
    fun seg rip rport => decode_encode (.onSyn seg rip rport) rfl, fun seg => decode_encode (.onAck seg) rfl,
    fun seg sip => decode_encode (.dispatch seg sip) rfl, fun frame => decode_encode (.rxFrame frame) rfl,
    decode_encode .connRead rfl⟩

/-! ### The step on a reserved code and on operands of other types -/

theorem exec_reserved_of_ready (code : Byte) {s : State} (h : s.fatal = false) :
    exec (.reserved code) s = .next (s.answer .illegalCommand none) := unlessFatal_of_ready h

/-- Settles O2: what decodes as RESERVED is well formed, so its code is reserved; the step is that command's. -/
theorem reservedCodesReturnIllegalCommand : Obligations.ReservedCodesReturnIllegalCommand := by
  refine ⟨fun c => ⟨fun h => (isReservedCode_iff c.code).mp (wf_of_decode h), decode_of_reserved⟩, ?step⟩
  case step =>
    intro s c rest hin hres
    rw [stepRunsTheDecodedCommand s c rest _ hin (decode_of_reserved hres)]
    exact ⟨fun hf => exec_reserved_of_ready c.code hf, fun hf => exec_of_fatal (.reserved c.code) hf⟩

theorem step_of_decode_error {s : State} {c : Command} {rest : List HostEvent} {e : DecodeError}
    (hin : s.inputs = .command c :: rest) (hdec : decode c = .error e) :
    step s = rejectTransaction { s with inputs := rest } e := by
  simp only [step, nextEvent_of_inputs hin, hdec]

/-- Settles O5: the transaction is rejected behind the FATAL test (R811, R812). -/
theorem wrongOperandsAreRejected : Obligations.WrongOperandsAreRejected := by
  intro s c rest op hin hdec
  rw [step_of_decode_error hin hdec]
  exact ⟨fun hf => unlessFatal_of_ready hf, fun hf => unlessFatal_of_fatal hf⟩

/-! ### The status codes -/

/-- Settles O13: the table of R330, read off for each status. -/
theorem statusCodesAreTheSpecs : Obligations.StatusCodesAreTheSpecs := by
  refine ⟨rfl, rfl, rfl, rfl, rfl, rfl, rfl, fun st => ?_⟩
  cases st <;> decide

end Sys2Proof.Machine

/-! The checksum (41_checksum.md): the model's sum is the statements' sum in number arithmetic, up to the multiples of
0xFFFF that folding a carry drops it is the plain sum of the words, and it is 0 for zero buffers only. -/

namespace Sys2Proof.Machine

open Sys2Proof.Claims

/-! ### The sum in number arithmetic -/

/-- The words of a buffer, as numbers, are those the statements read by index (R402). -/
theorem map_toNat_words : ∀ p : Buffer, (words p).map BitVec.toNat = (List.range (p.length / 2)).map (wordAt p)
  | [] => rfl
  | [_] => by simp [words]
  | a :: b :: rest => by
    have hlen : (a :: b :: rest).length / 2 = rest.length / 2 + 1 := by simp only [List.length_cons]; omega
    rw [hlen, List.range_succ_eq_map, List.map_cons, List.map_map, words, List.map_cons, map_toNat_words rest]
    exact congrArg (· :: _) (toNat_append8 a b)

theorem toNat_foldl_ocAdd (ws : List U16) (acc : U16) :
    (ws.foldl ocAdd acc).toNat = (ws.map BitVec.toNat).foldl endAround acc.toNat := by
  induction ws generalizing acc with
  | nil => rfl
  | cons w ws ih => rw [List.foldl_cons, ih, ocAdd_toNat]; rfl

/-- The sum of a buffer's words is the running sum of R400. -/
theorem toNat_onesSum (buf : Buffer) : (onesSum buf).toNat = foldedSum buf := by
  have hpad : padEven buf = padded buf := rfl
  rw [onesSum, toNat_foldl_ocAdd, map_toNat_words, List.foldl_map, hpad]
  rfl

/-- The complement of a 16-bit value as the statements write it (R19). -/
theorem not_eq_xor (x : U16) : ~~~ x = x ^^^ 0xFFFF := BitVec.xor_allOnes.symm

theorem csumValue_eq_checksumOf (buf : Buffer) : csumValue buf = checksumOf buf := by
  rw [csumValue_eq, checksumOf, ← toNat_onesSum, BitVec.ofNat_toNat, BitVec.setWidth_eq, not_eq_xor]

/-! ### CSUM -/

theorem exec_csum_of_admits {buf : Buffer} {s : State} (hf : s.fatal = false) (h : Admits s buf.length) :
    exec (.csum buf) s = .next (answered s .ok (some (.u16 (csumValue buf)))) :=
  (unlessFatal_of_ready hf).trans (admitBuffer_of_admitted (oversize_of_admits h))

/-- Settles O19: CSUM's two tests come first, and its value is the loop's by `csumValue_eq_checksumOf`. -/
theorem csumComputesTheChecksum : Obligations.CsumComputesTheChecksum := by
  refine fun buf => ⟨decode_encode (.csum buf) rfl, fun s hf => exec_of_fatal (.csum buf) hf,
    refusesTooLong_of_admitBuffer fun _ => rfl, fun s hf h => ?_⟩
  rw [exec_csum_of_admits hf h, csumValue_eq_checksumOf]

/-! ### Folding carries -/

/-- What folding a carry keeps of a number: its remainder by 0xFFFF, and whether it is 0 (R403, R404). -/
def SameFolded (a b : Nat) : Prop := a ≡ b [MOD 0xFFFF] ∧ (a = 0 ↔ b = 0)

theorem SameFolded.rfl {a : Nat} : SameFolded a a := ⟨.rfl, .rfl⟩

theorem SameFolded.trans {a b c : Nat} (h : SameFolded a b) (h' : SameFolded b c) : SameFolded a c :=
  ⟨h.1.trans h'.1, h.2.trans h'.2⟩

theorem SameFolded.symm {a b : Nat} (h : SameFolded a b) : SameFolded b a := ⟨h.1.symm, h.2.symm⟩

theorem SameFolded.add_right {a b : Nat} (h : SameFolded a b) (c : Nat) : SameFolded (a + c) (b + c) :=
  ⟨h.1.add_right c, by rw [Nat.add_eq_zero_iff, Nat.add_eq_zero_iff, h.2]⟩

/-- A fold takes 0xFFFF off for each 0x10000 it adds back in. -/
theorem sameFolded_foldOnce (n : Nat) : SameFolded (foldOnce n) n := by
  unfold SameFolded foldOnce Nat.ModEq
  omega

theorem sameFolded_iterate_foldOnce (k n : Nat) : SameFolded (foldOnce^[k] n) n := by
  induction k with
  | zero => exact .rfl
  | succ k ih =>
    rw [Function.iterate_succ_apply']
    exact (sameFolded_foldOnce _).trans ih

/-- The carry folded after each addition, or not at all (R403). -/
theorem sameFolded_foldl_endAround (ns : List Nat) (acc : Nat) :
    SameFolded (ns.foldl endAround acc) (acc + ns.sum) := by
  induction ns generalizing acc with
  | nil => exact .rfl
  | cons n ns ih =>
    rw [List.foldl_cons, List.sum_cons, ← Nat.add_assoc]
    exact (ih _).trans ((sameFolded_foldOnce (acc + n)).add_right _)

theorem sameFolded_foldedSum_wideSum (buf : Buffer) : SameFolded (foldedSum buf) (wideSum buf) := by
  have h := sameFolded_foldl_endAround ((List.range ((padded buf).length / 2)).map (wordAt (padded buf))) 0
  rwa [List.foldl_map, Nat.zero_add] at h

/-- Of the numbers that fit in 16 bits, only 0 and 0xFFFF have one remainder, and only one of these is 0. -/
theorem SameFolded.eq_of_lt {a b : Nat} (h : SameFolded a b) (ha : a < 0x10000) (hb : b < 0x10000) : a = b := by
  obtain ⟨hmod, hzero⟩ := h
  unfold Nat.ModEq at hmod
  omega

theorem foldedSum_lt (buf : Buffer) : foldedSum buf < 0x10000 := by
  rw [← toNat_onesSum]
  exact (onesSum buf).isLt

/-- Settles O20: both ways of folding keep the sum up to `SameFolded`, and both end within 16 bits. -/
theorem wideAccumulatorGivesTheSameChecksum : Obligations.WideAccumulatorGivesTheSameChecksum := by
  intro buf s n hf h hn
  have hsame := (sameFolded_iterate_foldOnce n (wideSum buf)).trans (sameFolded_foldedSum_wideSum buf).symm
  rw [hsame.eq_of_lt hn (foldedSum_lt buf), exec_csum_of_admits hf h, csumValue_eq_checksumOf, checksumOf]

/-! ### Buffers whose sum is 0 -/

theorem foldl_ocAdd_eq_zero_iff (ws : List U16) : ws.foldl ocAdd 0#16 = 0#16 ↔ ∀ w ∈ ws, w = 0#16 := by
  induction ws with
  | nil => simp
  | cons w ws ih => rw [List.foldl_cons, foldl_ocAdd, zero_ocAdd, ocAdd_eq_zero, ih, List.forall_mem_cons]

theorem append8_eq_zero_iff {a b : Byte} : (a ++ b : U16) = 0#16 ↔ a = 0 ∧ b = 0 := by
  rw [← BitVec.toNat_inj, toNat_append8, ← BitVec.toNat_inj, ← BitVec.toNat_inj]
  simp

theorem forall_mem_words_eq_zero :
    ∀ p : Buffer, p.length % 2 = 0 → ((∀ w ∈ words p, w = 0#16) ↔ ∀ b ∈ p, b = 0)
  | [], _ => by simp [words]
  | [_], h => by simp at h
  | a :: b :: rest, h => by
    have ih := forall_mem_words_eq_zero rest (by simp only [List.length_cons] at h; omega)
    rw [words, List.forall_mem_cons, append8_eq_zero_iff, ih, List.forall_mem_cons, List.forall_mem_cons, and_assoc]

theorem length_padEven_even (buf : Buffer) : (padEven buf).length % 2 = 0 := by
  unfold padEven
  split
  · rw [List.length_append, length_zeros]; omega
  · omega

/-- The padding is a zero byte, so it adds none that is not 0 (R402). -/
theorem forall_mem_padEven_eq_zero (buf : Buffer) : (∀ b ∈ padEven buf, b = 0) ↔ ∀ b ∈ buf, b = 0 := by
  unfold padEven
  split
  · simp [zeros, or_imp]
  · rfl

theorem onesSum_eq_zero_iff (buf : Buffer) : onesSum buf = 0#16 ↔ ∀ b ∈ buf, b = 0 :=
  calc onesSum buf = 0#16
    _ ↔ ∀ w ∈ words (padEven buf), w = 0#16 := foldl_ocAdd_eq_zero_iff _
    _ ↔ ∀ b ∈ padEven buf, b = 0 := forall_mem_words_eq_zero _ (length_padEven_even buf)
    _ ↔ ∀ b ∈ buf, b = 0 := forall_mem_padEven_eq_zero buf

/-- The checksum is 0xFFFF exactly where the sum is 0 (R404). -/
theorem csumValue_eq_allOnes_iff (buf : Buffer) : csumValue buf = 0xFFFF ↔ ∀ b ∈ buf, b = 0 := by
  have hcompl : ~~~ onesSum buf = ~~~ 0#16 ↔ onesSum buf = 0#16 := BitVec.not_inj
  rw [csumValue_eq, ← onesSum_eq_zero_iff, ← hcompl]
  rfl

/-- Settles O21: `csumValue_eq_allOnes_iff` of CSUM's answer. -/
theorem csumIsAllOnesOnlyForZeroBuffers : Obligations.CsumIsAllOnesOnlyForZeroBuffers :=
  fun buf _ hf h => ⟨csumValue buf, exec_csum_of_admits hf h, csumValue_eq_allOnes_iff buf⟩

/-! ### Self-verification -/

/-- The two big-endian bytes of a value are one word, which is the value. -/
theorem onesSum_hi_lo (c : U16) : onesSum [hi c, lo c] = c := by
  have hsum : onesSum [hi c, lo c] = ocAdd 0#16 (hi c ++ lo c) := onesSum_of_even (by simp)
  rw [hsum, zero_ocAdd, hi_eq_extract, lo_eq_extract, append_halves16]

/-- The appended word falls on a word boundary and is the complement of the sum before it (R405). -/
theorem csumValue_append_checksum {buf : Buffer} (h : buf.length % 2 = 0) :
    csumValue (buf ++ [hi (csumValue buf), lo (csumValue buf)]) = 0 := by
  rw [csumValue_eq (buf ++ _), onesSum_append _ h, onesSum_hi_lo, csumValue_eq, ocAdd_compl]
  decide

/-- Settles O22: c is the buffer's checksum, and `csumValue_append_checksum`. -/
theorem csumVerifiesItself : Obligations.CsumVerifiesItself := by
  intro buf c s hf hn heven hc
  have hshort : Admits s buf.length := fun m hm => Nat.le_of_add_right_le (hn m hm)
  have hlong : Admits s (buf ++ [hi c, lo c]).length := by rwa [List.length_append]
  obtain rfl : csumValue buf = c := by
    rw [exec_csum_of_admits hf hshort] at hc
    simpa [answered] using hc
  rw [exec_csum_of_admits hf hlong, csumValue_append_checksum heven]

end Sys2Proof.Machine

/-! The Ethernet header (42_ethernet.md): ETH_DEC and ETH_ENC are their codec's functions behind the FATAL and size
tests, the encoder writes the bytes the statements name, and the two functions are inverse to each other. -/

namespace Sys2Proof.Machine

open Sys2Proof.Claims

/-! ### Answers -/

theorem answered_inj {s : State} {st st' : Status} {r r' : Option Value} :
    answered s st r = answered s st' r' ↔ st = st' ∧ r = r' := by
  simp [answered]

/-- A decoder that answered OK with a record gave that record. -/
theorem ok_of_answerDecoded_map {α : Type} {s : State} {e : Except Status α} {tag : α → Value} {v : Value}
    (h : s.answerDecoded (e.map tag) = answered s .ok (some v)) : ∃ x, e = .ok x ∧ tag x = v := by
  cases e with
  | ok x => exact ⟨x, rfl, Option.some.inj (answered_inj.mp h).2⟩
  | error st => exact nomatch (answered_inj.mp h).2

/-! ### The bytes of a decoded header -/

/-- The two bytes of a big-endian pair are the pair (R202). -/
theorem bytesOf16_append (a b : Byte) : bytesOf16 (a ++ b) = [a, b] := by
  have hhi : (a ++ b : U16).extractLsb' 8 8 = a := BitVec.extractLsb'_append_eq_left
  have hlo : (a ++ b : U16).extractLsb' 0 8 = b := BitVec.extractLsb'_append_eq_right
  rw [bytesOf16, hhi, hlo]

theorem bytesOf16_memRead16 {buf : Buffer} {off : Nat} (h : off + 2 ≤ buf.length) :
    bytesOf16 (memRead16 buf off) = (buf.drop off).take 2 :=
  (bytesOf16_append _ _).trans (take_drop_eq_map_byteAt h).symm

theorem macBytes_macAt {buf : Buffer} {off : Nat} (h : off + 6 ≤ buf.length) :
    macBytes (macAt buf off) = (buf.drop off).take 6 :=
  (take_drop_eq_map_byteAt h).symm

/-! ### The codec -/

theorem ethEncode_eq_ethBytes (f : EthernetFrame) : ethEncode f = ethBytes f := by
  rw [ethEncode_eq, ethBytes, hi_eq_extract, lo_eq_extract]

theorem ethDecode_of_lt {buf : Buffer} (h : buf.length < 14) : ethDecode buf = .error .formatError := if_pos h

/-- What decodes holds a header, and the record is read at the header's offsets (R310, R450). -/
theorem ethDecode_ok {buf : Buffer} {f : EthernetFrame} (h : ethDecode buf = .ok f) :
    14 ≤ buf.length ∧ f = ⟨macAt buf 0, macAt buf 6, memRead16 buf 12⟩ := by
  unfold ethDecode at h
  split at h
  · cases h
  · cases h; exact ⟨Nat.le_of_not_lt ‹_›, rfl⟩

theorem ethDecode_ethEncode (f : EthernetFrame) : ethDecode (ethEncode f) = .ok f := by
  calc ethDecode (ethEncode f)
    _ = .ok ⟨f.dst, f.src, f.etherType.extractLsb' 8 8 ++ f.etherType.extractLsb' 0 8⟩ :=
      ethDecode_bytes (rest := []) ..
    _ = .ok f := by rw [append_halves16]

/-- The three fields of the record are the first six, the next six and the next two bytes (R452). -/
theorem ethEncode_of_ethDecode {buf : Buffer} {f : EthernetFrame} (h : ethDecode buf = .ok f) :
    ethEncode f = buf.take 14 := by
  obtain ⟨hlen, rfl⟩ := ethDecode_ok h
  calc macBytes (macAt buf 0) ++ macBytes (macAt buf 6) ++ bytesOf16 (memRead16 buf 12)
    _ = buf.take 6 ++ (buf.drop 6).take 6 ++ (buf.drop 12).take 2 := by
      rw [macBytes_macAt (by omega), macBytes_macAt (by omega), bytesOf16_memRead16 hlen, List.drop_zero]
    _ = buf.take (6 + 6 + 2) := by rw [List.take_add (i := 6 + 6), List.take_add (i := 6)]

/-! ### The commands -/

theorem exec_ethEnc_of_ready (f : EthernetFrame) {s : State} (hf : s.fatal = false) :
    exec (.ethEnc f) s = .next (answered s .ok (some (.bytes (ethEncode f)))) := unlessFatal_of_ready hf

theorem exec_ethDec_of_admits {buf : Buffer} {s : State} (hf : s.fatal = false) (h : Admits s buf.length) :
    exec (.ethDec buf) s = .next (s.answerDecoded ((ethDecode buf).map .ethernetFrame)) :=
  (unlessFatal_of_ready hf).trans (admitBuffer_of_admitted (oversize_of_admits h))

theorem exec_ethDec_of_ok {buf : Buffer} {f : EthernetFrame} {s : State} (hf : s.fatal = false)
    (h : Admits s buf.length) (hd : ethDecode buf = .ok f) :
    exec (.ethDec buf) s = .next (answered s .ok (some (.ethernetFrame f))) := by
  rw [exec_ethDec_of_admits hf h, hd]; rfl

/-- ETH_DEC answers OK with a record only where the buffer decodes to it. -/
theorem ethDecode_of_exec {buf : Buffer} {f : EthernetFrame} {s : State} (hf : s.fatal = false)
    (h : exec (.ethDec buf) s = .next (answered s .ok (some (.ethernetFrame f)))) : ethDecode buf = .ok f := by
  obtain ⟨-, hnext⟩ := admitBuffer_next ((unlessFatal_of_ready hf).symm.trans h)
  obtain ⟨f', hd, htag⟩ := ok_of_answerDecoded_map (Host.Outcome.next.inj hnext)
  rwa [← Value.ethernetFrame.inj htag]

/-- Settles O25: the codec's two round trips, `ethDecode_ethEncode` and `ethEncode_of_ethDecode`, of the commands'
answers. -/
theorem ethRoundTrips : Obligations.EthRoundTrips := by
  refine fun s hf => ⟨fun f out h hn => ?decEnc, fun buf f h => ?encDec⟩
  case decEnc =>
    obtain rfl : ethEncode f = out := by
      rw [exec_ethEnc_of_ready f hf, Host.Outcome.next.injEq, answered_inj] at h
      exact Value.bytes.inj (Option.some.inj h.2)
    exact exec_ethDec_of_ok hf hn (ethDecode_ethEncode f)
  case encDec =>
    rw [exec_ethEnc_of_ready f hf, ethEncode_of_ethDecode (ethDecode_of_exec hf h)]

/-- Settles O23: behind ETH_DEC's two tests a short buffer does not decode, and `ethDecode_bytes` reads the others. -/
theorem ethDecReadsTheHeader : Obligations.EthDecReadsTheHeader := by
  refine ⟨fun buf => ⟨decode_encode (.ethDec buf) rfl, fun s hf => exec_of_fatal (.ethDec buf) hf,
    refusesTooLong_of_admitBuffer fun _ => rfl, fun s hf h hlt => ?short⟩, ?header⟩
  case short => rw [exec_ethDec_of_admits hf h, ethDecode_of_lt hlt]; rfl
  case header =>
    intro b0 b1 b2 b3 b4 b5 b6 b7 b8 b9 b10 b11 b12 b13 rest s hf h
    rw [be16_eq_append]
    exact exec_ethDec_of_ok hf (by rwa [List.length_append]) (ethDecode_bytes ..)

/-- Settles O24: ETH_ENC tests FATAL only, and its bytes are those of R310 by `ethEncode_eq_ethBytes`. -/
theorem ethEncWritesTheHeader : Obligations.EthEncWritesTheHeader := by
  refine fun f => ⟨decode_encode (.ethEnc f) rfl, fun s hf => exec_of_fatal (.ethEnc f) hf, fun s hf => ?_⟩
  rw [exec_ethEnc_of_ready f hf, ethEncode_eq_ethBytes]

end Sys2Proof.Machine

/-! The IPv4 header (43_ipv4.md): what a decoding command and an encoding command answer, the bit fields of bytes 0, 6
and 7 as numbers, and the codec's two functions as inverse to each other. -/

namespace Sys2Proof.Machine

open Sys2Proof.Claims

/-! ### Commands that decode a buffer or encode a record -/

section Decoder
variable {α : Type} {i : Instr} {n : Nat} {e : Except Status α} {tag : α → Value} {s : State}
  (hi : exec i s = unlessFatal s (admitBuffer s n (.next (s.answerDecoded (e.map tag))))) (hf : s.fatal = false)
include hi hf

theorem exec_decoder_of_admits (h : Admits s n) : exec i s = .next (s.answerDecoded (e.map tag)) :=
  hi.trans ((unlessFatal_of_ready hf).trans (admitBuffer_of_admitted (oversize_of_admits h)))

theorem exec_decoder_of_ok {x : α} (h : Admits s n) (he : e = .ok x) :
    exec i s = .next (answered s .ok (some (tag x))) := by
  rw [exec_decoder_of_admits hi hf h, he]; rfl

theorem exec_decoder_of_error {st : Status} (h : Admits s n) (he : e = .error st) :
    exec i s = .next (answered s st none) := by
  rw [exec_decoder_of_admits hi hf h, he]; rfl

/-- A decoding command answers OK with a record only where its operand decodes to it. -/
theorem ok_of_exec_decoder {x : α} (htag : Function.Injective tag)
    (h : exec i s = .next (answered s .ok (some (tag x)))) : e = .ok x := by
  obtain ⟨-, hnext⟩ := admitBuffer_next ((hi.trans (unlessFatal_of_ready hf)).symm.trans h)
  obtain ⟨y, he, hy⟩ := ok_of_answerDecoded_map (Host.Outcome.next.inj hnext)
  rwa [← htag hy]

end Decoder

/-- A state carries one answer: two byte results of one outcome are the same bytes. -/
theorem bytes_of_next_answered {s : State} {out out' : Buffer}
    (h : (.next (answered s .ok (some (.bytes out))) : Result) = .next (answered s .ok (some (.bytes out')))) :
    out = out' :=
  Value.bytes.inj (Option.some.inj (answered_inj.mp (Host.Outcome.next.inj h)).2)

/-! ### Bit fields as numbers -/

theorem toNat_append_eq_add {m n : Nat} (x : BitVec m) (y : BitVec n) :
    (x ++ y).toNat = x.toNat * 2 ^ n + y.toNat := by
  rw [BitVec.toNat_append, ← Nat.shiftLeft_add_eq_or_of_lt y.isLt, Nat.shiftLeft_eq]

/-- The number of a value, cut to the value's width, is the value. -/
theorem ofNat_eq_of_toNat_eq {w n : Nat} {x : BitVec w} (h : x.toNat = n) : BitVec.ofNat w n = x := by
  rw [← h, BitVec.ofNat_toNat, BitVec.setWidth_eq]

/-- The flags of byte 6 (R312). -/
theorem toNat_flagsOfByte6 (b : Byte) : (b.extractLsb' 5 3).toNat = b.toNat / 32 := by
  have := b.isLt
  rw [BitVec.extractLsb'_toNat, Nat.shiftRight_eq_div_pow]; omega

/-- The fragment offset of bytes 6 and 7 (R312). -/
theorem toNat_fragOffOfBytes (b6 b7 : Byte) :
    (b6.extractLsb' 0 5 ++ b7).toNat = b6.toNat % 32 * 256 + b7.toNat := by
  have hlow : (b6.extractLsb' 0 5).toNat = b6.toNat % 32 := by rw [BitVec.extractLsb'_toNat, Nat.shiftRight_zero]
  rw [← hlow]
  exact toNat_append_eq_add (b6.extractLsb' 0 5) b7

theorem toNat_ip4Byte0 (h : IPv4Header) : (ip4Byte0 h).toNat = h.version.toNat * 16 + h.ihl.toNat :=
  toNat_append_eq_add h.version h.ihl

theorem toNat_ip4Byte6 (h : IPv4Header) : (ip4Byte6 h).toNat = h.flags.toNat * 32 + h.fragOff.toNat / 256 := by
  have hlt := h.fragOff.isLt
  have hhigh : (h.fragOff.extractLsb' 8 5).toNat = h.fragOff.toNat / 256 := by
    rw [BitVec.extractLsb'_toNat, Nat.shiftRight_eq_div_pow]; omega
  rw [← hhigh]
  exact toNat_append_eq_add h.flags (h.fragOff.extractLsb' 8 5)

/-- Byte 7: the low eight bits of the fragment offset (R312). -/
theorem toNat_ip4Byte7 (h : IPv4Header) : (h.fragOff.extractLsb' 0 8).toNat = h.fragOff.toNat % 256 := by
  rw [BitVec.extractLsb'_toNat, Nat.shiftRight_zero]

/-! ### The codec -/

theorem ip4Encode_eq_ip4Bytes (h : IPv4Header) : ip4Encode h = ip4Bytes h := by
  rw [ip4Encode_eq, ip4Bytes, ofNat_eq_of_toNat_eq (toNat_ip4Byte0 h), ofNat_eq_of_toNat_eq (toNat_ip4Byte6 h),
    ofNat_eq_of_toNat_eq (toNat_ip4Byte7 h)]
  simp only [hi_eq_extract, lo_eq_extract]
  rfl

theorem ip4Decode_of_lt {buf : Buffer} (h : buf.length < 20) : ip4Decode buf = .error .formatError := if_pos h

/-- What decodes holds a header, and the record is read at the header's offsets (R311, R500). -/
theorem ip4Decode_ok {buf : Buffer} {h : IPv4Header} (hd : ip4Decode buf = .ok h) :
    20 ≤ buf.length ∧ h =
      ⟨(byteAt buf 0).extractLsb' 4 4, (byteAt buf 0).extractLsb' 0 4, byteAt buf 1, memRead16 buf 2, memRead16 buf 4,
        (byteAt buf 6).extractLsb' 5 3, (byteAt buf 6).extractLsb' 0 5 ++ byteAt buf 7, byteAt buf 8, byteAt buf 9,
        memRead16 buf 10, addrAt buf 12, addrAt buf 16⟩ := by
  unfold ip4Decode at hd
  split at hd
  · cases hd
  · cases hd; exact ⟨Nat.le_of_not_lt ‹_›, rfl⟩

theorem ip4Decode_ip4Encode (h : IPv4Header) : ip4Decode (ip4Encode h) = .ok h := by
  have hversion : (ip4Byte0 h).extractLsb' 4 4 = h.version := BitVec.extractLsb'_append_eq_left
  have hihl : (ip4Byte0 h).extractLsb' 0 4 = h.ihl := BitVec.extractLsb'_append_eq_right
  have hflags : (ip4Byte6 h).extractLsb' 5 3 = h.flags := BitVec.extractLsb'_append_eq_left
  have hhigh : (ip4Byte6 h).extractLsb' 0 5 = h.fragOff.extractLsb' 8 5 := BitVec.extractLsb'_append_eq_right
  have hfragOff : h.fragOff.extractLsb' 8 5 ++ h.fragOff.extractLsb' 0 8 = h.fragOff :=
    BitVec.extractLsb'_append_extractLsb'
  rw [ip4Encode_eq]
  refine (ip4Decode_bytes (rest := []) ..).trans ?_
  rw [hversion, hihl, hflags, hhigh, hfragOff, append_halves16, append_halves16, append_halves16]

/-- Each byte of the header is put together again from the fields it was cut into (R502). -/
theorem ip4Encode_of_ip4Decode {buf : Buffer} {h : IPv4Header} (hd : ip4Decode buf = .ok h) :
    ip4Encode h = buf.take 20 := by
  obtain ⟨hlen, rfl⟩ := ip4Decode_ok hd
  have hbyte0 (b : Byte) : b.extractLsb' 4 4 ++ b.extractLsb' 0 4 = b := BitVec.extractLsb'_append_extractLsb'
  have hbyte6 (b : Byte) : b.extractLsb' 5 3 ++ b.extractLsb' 0 5 = b := BitVec.extractLsb'_append_extractLsb'
  have hfragHigh (a : BitVec 5) (b : Byte) : (a ++ b).extractLsb' 8 5 = a := BitVec.extractLsb'_append_eq_left
  have hhigh (a b : Byte) : (a ++ b : U16).extractLsb' 8 8 = a := BitVec.extractLsb'_append_eq_left
  have htake : buf.take 20 = (List.range 20).map fun k => byteAt buf (0 + k) :=
    take_drop_eq_map_byteAt (off := 0) hlen
  rw [ip4Encode_eq, htake]
  simp only [ip4Byte0, ip4Byte6, memRead16, hbyte0, hbyte6, hfragHigh, hhigh, BitVec.extractLsb'_append_eq_right]
  rfl

/-! ### The commands -/

theorem exec_ip4Enc_of_ready (h : IPv4Header) {s : State} (hf : s.fatal = false) :
    exec (.ip4Enc h) s = .next (answered s .ok (some (.bytes (ip4Encode h)))) := unlessFatal_of_ready hf

theorem exec_ip4Dec (buf : Buffer) (s : State) : exec (.ip4Dec buf) s =
    unlessFatal s (admitBuffer s buf.length (.next (s.answerDecoded ((ip4Decode buf).map .ipv4Header)))) := rfl

/-- Settles O28: the codec's two round trips, `ip4Decode_ip4Encode` and `ip4Encode_of_ip4Decode`, of the commands'
answers. -/
theorem ip4RoundTrips : Obligations.Ip4RoundTrips := by
  refine fun s hf => ⟨fun h out henc hn => ?decEnc, fun buf h hdec => ?encDec⟩
  case decEnc =>
    obtain rfl : ip4Encode h = out := bytes_of_next_answered ((exec_ip4Enc_of_ready h hf).symm.trans henc)
    exact exec_decoder_of_ok (exec_ip4Dec _ s) hf (by rwa [length_ip4Encode]) (ip4Decode_ip4Encode h)
  case encDec =>
    have hd : ip4Decode buf = .ok h :=
      ok_of_exec_decoder (exec_ip4Dec buf s) hf (fun _ _ => Value.ipv4Header.inj) hdec
    rw [exec_ip4Enc_of_ready h hf, ip4Encode_of_ip4Decode hd]

/-- Settles O26: behind IP4_DEC's two tests a short buffer does not decode, and `ip4Decode_bytes` reads the others, its
bit fields being the statement's numbers. -/
theorem ip4DecReadsTheHeader : Obligations.Ip4DecReadsTheHeader := by
  refine ⟨fun buf => ⟨decode_encode (.ip4Dec buf) rfl, fun s hf => exec_of_fatal (.ip4Dec buf) hf,
    refusesTooLong_of_admitBuffer fun _ => rfl, fun s hf h hlt => ?short⟩, ?header⟩
  case short => exact exec_decoder_of_error (exec_ip4Dec buf s) hf h (ip4Decode_of_lt hlt)
  case header =>
    intro b0 b1 b2 b3 b4 b5 b6 b7 b8 b9 b10 b11 b12 b13 b14 b15 b16 b17 b18 b19 rest s hf h
    rw [ofNat_eq_of_toNat_eq (toNat_highNibble b0), ofNat_eq_of_toNat_eq (toNat_lowNibble b0),
      ofNat_eq_of_toNat_eq (toNat_flagsOfByte6 b6), ofNat_eq_of_toNat_eq (toNat_fragOffOfBytes b6 b7),
      be16_eq_append, be16_eq_append, be16_eq_append]
    exact exec_decoder_of_ok (exec_ip4Dec _ s) hf (by rwa [List.length_append]) (ip4Decode_bytes ..)

/-- Settles O27: IP4_ENC tests FATAL only, and its bytes are those of R311 and R312 by `ip4Encode_eq_ip4Bytes`. -/
theorem ip4EncWritesTheHeader : Obligations.Ip4EncWritesTheHeader := by
  refine fun h => ⟨decode_encode (.ip4Enc h) rfl, fun s hf => exec_of_fatal (.ip4Enc h) hf, fun s hf => ?_⟩
  rw [exec_ip4Enc_of_ready h hf, ip4Encode_eq_ip4Bytes]

end Sys2Proof.Machine

/-! The TCP header (44_tcp.md): bytes 12 and 13 as numbers, the codec's two functions, and what the decoder drops of a
header: the reserved bits of byte 12 and bytes 16 to 19, which the encoder writes as zero. -/

namespace Sys2Proof.Machine

open Sys2Proof.Claims

/-! ### Bytes 12 and 13 -/

/-- Byte 12 of an encoded segment: the data offset in the high half, and NS (R314, R321). -/
theorem toNat_flagByte12 (dataOffset : BitVec 4) (flags : BitVec 9) :
    (flagByte12 dataOffset flags).toNat = dataOffset.toNat * 16 + flags.toNat / 256 := by
  have hlt := flags.isLt
  have hhigh : (dataOffset ++ 0#3).toNat = dataOffset.toNat * 8 := toNat_append_eq_add dataOffset 0#3
  have hns : (flags.extractLsb' 8 1).toNat = flags.toNat / 256 := by
    rw [BitVec.extractLsb'_toNat, Nat.shiftRight_eq_div_pow]; omega
  have happend := toNat_append_eq_add (dataOffset ++ 0#3) (flags.extractLsb' 8 1)
  rw [hhigh, hns] at happend
  exact happend.trans (by omega)

/-- Byte 13: the eight low flags (R314). -/
theorem toNat_flagByte13 (flags : BitVec 9) : (flagByte13 flags).toNat = flags.toNat % 256 := by
  rw [flagByte13, BitVec.extractLsb'_toNat, Nat.shiftRight_zero]

theorem highNibble_flagByte12 (dataOffset : BitVec 4) (flags : BitVec 9) :
    (flagByte12 dataOffset flags).extractLsb' 4 4 = dataOffset := by
  have hlt := flags.isLt
  apply BitVec.eq_of_toNat_eq
  rw [toNat_highNibble, toNat_flagByte12]
  omega

theorem flagsOfBytes_flagBytes (dataOffset : BitVec 4) (flags : BitVec 9) :
    flagsOfBytes (flagByte12 dataOffset flags) (flagByte13 flags) = flags := by
  have hlt := flags.isLt
  apply BitVec.eq_of_toNat_eq
  rw [toNat_flagsOfBytes, toNat_flagByte12, toNat_flagByte13]
  omega

theorem flagByte13_flagsOfBytes (b12 b13 : Byte) : flagByte13 (flagsOfBytes b12 b13) = b13 :=
  BitVec.extractLsb'_append_eq_right

/-- Byte 12 survives decoding and encoding exactly when its bits 3..1 are 0 (R553). -/
theorem flagByte12_of_decoded_eq_iff (b12 b13 : Byte) :
    flagByte12 (b12.extractLsb' 4 4) (flagsOfBytes b12 b13) = b12 ↔ b12.toNat / 2 % 8 = 0 := by
  have h13 := b13.isLt
  rw [← BitVec.toNat_inj, toNat_flagByte12, toNat_highNibble, toNat_flagsOfBytes]
  omega

/-! ### The codec -/

theorem tcpEncode_eq_tcpBytes (seg : TCPSegment) : tcpEncode seg = tcpBytes seg 0 := by
  rw [tcpEncode_eq, tcpBytes, bytes32_eq, bytes32_eq, ofNat_eq_of_toNat_eq (toNat_flagByte12 seg.dataOffset seg.flags),
    ofNat_eq_of_toNat_eq (toNat_flagByte13 seg.flags)]
  simp only [hi_eq_extract, lo_eq_extract]
  rfl

theorem tcpDecode_of_lt {buf : Buffer} (h : buf.length < 20) : tcpDecode buf = .error .formatError := if_pos h

/-- What decodes holds a header, and the record is read at the header's offsets (R313, R550). -/
theorem tcpDecode_ok {buf : Buffer} {seg : TCPSegment} (hd : tcpDecode buf = .ok seg) :
    20 ≤ buf.length ∧ seg =
      ⟨memRead16 buf 0, memRead16 buf 2, memRead32 buf 4, memRead32 buf 8, (byteAt buf 12).extractLsb' 4 4,
        flagsOfBytes (byteAt buf 12) (byteAt buf 13), memRead16 buf 14⟩ := by
  unfold tcpDecode at hd
  split at hd
  · cases hd
  · cases hd; exact ⟨Nat.le_of_not_lt ‹_›, rfl⟩

theorem tcpDecode_tcpEncode (seg : TCPSegment) : tcpDecode (tcpEncode seg) = .ok seg := by
  rw [tcpEncode_eq]
  refine (tcpDecode_bytes (rest := []) ..).trans ?_
  simp only [append_halves16, highNibble_flagByte12, flagsOfBytes_flagBytes]
  rw [append_halves32, append_halves32]

/-- Encoding a decoded segment clears the reserved bits of byte 12 and bytes 16 to 19, and nothing else (R553). -/
theorem tcpEncode_of_tcpDecode {buf : Buffer} {seg : TCPSegment} (hd : tcpDecode buf = .ok seg) :
    tcpEncode seg = buf.take 12 ++
      [flagByte12 ((byteAt buf 12).extractLsb' 4 4) (flagsOfBytes (byteAt buf 12) (byteAt buf 13)),
        byteAt buf 13, byteAt buf 14, byteAt buf 15, 0, 0, 0, 0] := by
  obtain ⟨hlen, rfl⟩ := tcpDecode_ok hd
  have htake : buf.take 12 = (List.range 12).map fun k => byteAt buf (0 + k) :=
    take_drop_eq_map_byteAt (off := 0) (by omega)
  have hhigh (a b : Byte) : (a ++ b : U16).extractLsb' 8 8 = a := BitVec.extractLsb'_append_eq_left
  have hhigh32 (a b : U16) : (a ++ b : U32).extractLsb' 16 16 = a := BitVec.extractLsb'_append_eq_left
  rw [tcpEncode_eq, htake]
  simp only [memRead32, memRead16, hhigh, hhigh32, BitVec.extractLsb'_append_eq_right, flagByte13_flagsOfBytes]
  rfl

/-- A decoded segment encodes to the header it was decoded from exactly when what is cleared was 0 (R553). -/
theorem tcpEncode_eq_take_iff {buf : Buffer} {seg : TCPSegment} (hd : tcpDecode buf = .ok seg) :
    tcpEncode seg = buf.take 20 ↔
      (byteAt buf 12).toNat / 2 % 8 = 0 ∧ byteAt buf 16 = 0 ∧ byteAt buf 17 = 0 ∧ byteAt buf 18 = 0 ∧
        byteAt buf 19 = 0 := by
  obtain ⟨hlen, -⟩ := tcpDecode_ok hd
  have htake : buf.take 20 = buf.take 12 ++ (List.range 8).map fun k => byteAt buf (12 + k) := by
    rw [← take_drop_eq_map_byteAt hlen, ← List.take_add]
  rw [tcpEncode_of_tcpDecode hd, htake, List.append_right_inj, ← flagByte12_of_decoded_eq_iff _ (byteAt buf 13)]
  simp [List.range_succ, eq_comm (a := 0#8)]

/-! ### The commands -/

theorem exec_tcpEnc_of_ready (seg : TCPSegment) {s : State} (hf : s.fatal = false) :
    exec (.tcpEnc seg) s = .next (answered s .ok (some (.bytes (tcpEncode seg)))) := unlessFatal_of_ready hf

theorem exec_tcpDec (buf : Buffer) (s : State) : exec (.tcpDec buf) s =
    unlessFatal s (admitBuffer s buf.length (.next (s.answerDecoded ((tcpDecode buf).map .tcpSegment)))) := rfl

/-- TCP_ENC answers with the encoding and with no other bytes. -/
theorem exec_tcpEnc_eq_iff {seg : TCPSegment} {s : State} {out : Buffer} (hf : s.fatal = false) :
    exec (.tcpEnc seg) s = .next (answered s .ok (some (.bytes out))) ↔ tcpEncode seg = out := by
  rw [exec_tcpEnc_of_ready seg hf]
  exact ⟨bytes_of_next_answered, fun h => by rw [h]⟩

/-- Settles O29: behind TCP_DEC's two tests a short buffer does not decode, and `tcpDecode_of_le` reads the others. -/
theorem tcpDecReadsTheHeader : Obligations.TcpDecReadsTheHeader := by
  refine ⟨fun buf => ⟨decode_encode (.tcpDec buf) rfl, fun s hf => exec_of_fatal (.tcpDec buf) hf,
    refusesTooLong_of_admitBuffer fun _ => rfl, fun s hf h hlt => ?short⟩, ?header⟩
  case short => exact exec_decoder_of_error (exec_tcpDec buf s) hf h (tcpDecode_of_lt hlt)
  case header =>
    intro b0 b1 b2 b3 b4 b5 b6 b7 b8 b9 b10 b11 b12 b13 b14 b15 b16 b17 b18 b19 rest s hf h
    exact exec_decoder_of_ok (exec_tcpDec _ s) hf (by rwa [List.length_append])
      (tcpDecode_of_le (by rw [List.length_append]; exact Nat.le_add_right 20 _))

/-- Settles O30: TCP_ENC tests FATAL only, and its bytes are those of R313 and R314 by `tcpEncode_eq_tcpBytes`. -/
theorem tcpEncWritesTheHeader : Obligations.TcpEncWritesTheHeader := by
  refine fun seg => ⟨decode_encode (.tcpEnc seg) rfl, fun s hf => exec_of_fatal (.tcpEnc seg) hf, fun s hf => ?_⟩
  rw [exec_tcpEnc_of_ready seg hf, tcpEncode_eq_tcpBytes]

/-- Settles O31: `tcpDecode_tcpEncode` of the commands' answers. -/
theorem tcpRecordRoundTrips : Obligations.TcpRecordRoundTrips := by
  intro s seg out hf hn henc
  obtain rfl := (exec_tcpEnc_eq_iff hf).mp henc
  exact exec_decoder_of_ok (exec_tcpDec _ s) hf (by rwa [length_tcpEncode]) (tcpDecode_tcpEncode seg)

/-- Settles O32: `tcpEncode_eq_take_iff` of the commands' answers. -/
theorem tcpBytesRoundTripExactlyWhenUnpatched : Obligations.TcpBytesRoundTripExactlyWhenUnpatched := by
  intro s buf seg hf hdec
  have hd : tcpDecode buf = .ok seg :=
    ok_of_exec_decoder (exec_tcpDec buf s) hf (fun _ _ => Value.tcpSegment.inj) hdec
  exact (exec_tcpEnc_eq_iff hf).trans (tcpEncode_eq_take_iff hd)

end Sys2Proof.Machine

/-! The pseudo-header checksum (45_pseudo_header.md): TCP_CSUM answers the complement of the pseudo-header's sum and the
segment's added, and TCP_SEAL puts that checksum in the place of a zero word of the segment. -/

namespace Sys2Proof.Machine

open Sys2Proof.Claims

/-! ### The pseudo-header -/

/-- The length's two bytes are those of the number, which is cut to 16 bits either way (R601). -/
theorem pseudoHdr_ofNat (src dst : IPv4Addr) (n : Nat) :
    pseudoHdr src dst (BitVec.ofNat 16 n) = pseudoOf src dst n := by
  have hhi : hi (BitVec.ofNat 16 n) = BitVec.ofNat 8 (n / 256) := by
    apply BitVec.eq_of_toNat_eq
    simp only [hi, BitVec.toNat_ofNat]
    omega
  have hlo : lo (BitVec.ofNat 16 n) = BitVec.ofNat 8 (n % 256) := by
    apply BitVec.eq_of_toNat_eq
    simp only [lo, BitVec.toNat_ofNat]
    omega
  rw [pseudoHdr, bytesOf16, ← hi_eq_extract, ← lo_eq_extract, hhi, hlo, List.append_assoc]
  rfl

theorem tcpChecksum_eq_checksumOf (src dst : IPv4Addr) (seg : Buffer) :
    tcpChecksum src dst seg = checksumOf (pseudoOf src dst seg.length ++ seg) := by
  rw [tcpChecksum, csumValue_eq_checksumOf, pseudoHdr_ofNat]

@[simp] theorem length_pseudoHdr (src dst : IPv4Addr) (n : U16) : (pseudoHdr src dst n).length = 12 := rfl

@[simp] theorem length_addrBytes (a : IPv4Addr) : (addrBytes a).length = 4 := rfl

/-- The pseudo-header has 12 bytes, so the segment starts on a word boundary (R601). -/
theorem tcpChecksum_eq_not_ocAdd (src dst : IPv4Addr) (seg : Buffer) : tcpChecksum src dst seg =
    ~~~ ocAdd (onesSum (pseudoHdr src dst (BitVec.ofNat 16 seg.length))) (onesSum seg) := by
  rw [tcpChecksum, csumValue_eq, onesSum_append _ (by rw [length_pseudoHdr])]

/-- The addresses are whole words, and `+'` is commutative (V25). -/
theorem onesSum_pseudoHdr_comm (src dst : IPv4Addr) (n : U16) :
    onesSum (pseudoHdr src dst n) = onesSum (pseudoHdr dst src n) := by
  have hsplit (a b : IPv4Addr) : onesSum (pseudoHdr a b n) =
      ocAdd (ocAdd (onesSum (addrBytes a)) (onesSum (addrBytes b)))
        (onesSum ([0x00, Config.protoTcp] ++ bytesOf16 n)) := by
    rw [pseudoHdr, List.append_assoc, onesSum_append _ (by simp), onesSum_append _ (by simp)]
  rw [hsplit, hsplit, ocAdd_comm (onesSum (addrBytes src))]

theorem tcpChecksum_comm (src dst : IPv4Addr) (seg : Buffer) : tcpChecksum src dst seg = tcpChecksum dst src seg := by
  rw [tcpChecksum_eq_not_ocAdd, onesSum_pseudoHdr_comm, ← tcpChecksum_eq_not_ocAdd]

/-- The pseudo-header holds the protocol byte 6, so what is summed is no zero buffer (R404, R600). -/
theorem tcpChecksum_ne_allOnes (src dst : IPv4Addr) (seg : Buffer) : tcpChecksum src dst seg ≠ 0xFFFF := by
  intro h
  have hmem : Config.protoTcp ∈ pseudoHdr src dst (BitVec.ofNat 16 seg.length) ++ seg := by simp [pseudoHdr]
  exact absurd ((csumValue_eq_allOnes_iff _).mp h _ hmem) (by decide)

/-! ### The patched segment -/

/-- A word in an even place adds its value to the sum of the buffer with zeros there (R402). -/
theorem onesSum_memWrite16 {buf : Buffer} {off : Nat} (v : U16) (h : off + 2 ≤ buf.length) (heven : off % 2 = 0) :
    onesSum (memWrite16 buf off v) = ocAdd v (onesSum (memWrite16 buf off 0)) := by
  have htake : (buf.take off).length % 2 = 0 := by rw [List.length_take_of_le (by omega), heven]
  have hsplit (w : U16) : onesSum (memWrite16 buf off w) =
      ocAdd w (ocAdd (onesSum (buf.take off)) (onesSum (buf.drop (off + 2)))) := by
    rw [memWrite16_split buf off w h, ← hi_eq_extract, ← lo_eq_extract, List.append_assoc, onesSum_append _ htake,
      onesSum_append _ (by simp), onesSum_hi_lo, ← ocAdd_assoc, ocAdd_comm _ w, ocAdd_assoc]
  rw [hsplit v, hsplit 0]
  exact congrArg (ocAdd v) (zero_ocAdd _).symm

theorem memWrite16_eq_withField {seg : Buffer} (v : U16) (h : 18 ≤ seg.length) :
    memWrite16 seg 16 v = withField seg (hi v) (lo v) := by
  rw [memWrite16_split seg 16 v h, withField, hi_eq_extract, lo_eq_extract]

theorem memWrite16_memWrite16 (buf : Buffer) (off : Nat) (u v : U16) :
    memWrite16 (memWrite16 buf off u) off v = memWrite16 buf off v := by
  unfold memWrite16 memWrite8
  rw [List.set_comm _ _ (Nat.succ_ne_self off), List.set_set, List.set_set]

/-- Zeroing the field matters to the checksum only: the write replaces both its bytes (R602). -/
theorem sealSegment_eq_memWrite16 (src dst : IPv4Addr) (seg : Buffer) :
    sealSegment src dst seg = memWrite16 seg 16 (tcpChecksum src dst (memWrite16 seg 16 0)) :=
  memWrite16_memWrite16 seg 16 0 _

/-- The checksum of the segment with its field zero stands in the field, and no other byte changes (R602). -/
theorem sealSegment_eq_withField (src dst : IPv4Addr) {seg : Buffer} (h : 18 ≤ seg.length) :
    sealSegment src dst seg = withField seg (hi (sealValue src dst seg)) (lo (sealValue src dst seg)) := by
  have hvalue : tcpChecksum src dst (memWrite16 seg 16 0) = sealValue src dst seg := by
    rw [tcpChecksum_eq_checksumOf, length_memWrite16, memWrite16_eq_withField 0 h]
    rfl
  rw [sealSegment_eq_memWrite16, hvalue, memWrite16_eq_withField _ h]

@[simp] theorem length_sealSegment (src dst : IPv4Addr) (seg : Buffer) :
    (sealSegment src dst seg).length = seg.length := by simp [sealSegment]

/-- The field's value is one term of the sum, at even and odd lengths alike (R602, R603). -/
theorem tcpChecksum_memWrite16 (src dst : IPv4Addr) {seg : Buffer} (v : U16) (h : 18 ≤ seg.length) :
    tcpChecksum src dst (memWrite16 seg 16 v) = ~~~ ocAdd v (~~~ tcpChecksum src dst (memWrite16 seg 16 0)) := by
  rw [tcpChecksum_eq_not_ocAdd, tcpChecksum_eq_not_ocAdd, BitVec.not_not, length_memWrite16, length_memWrite16,
    onesSum_memWrite16 v h rfl, ← ocAdd_assoc, ocAdd_comm _ v, ocAdd_assoc]

/-- The field is the complement of the sum of everything else (R603). -/
theorem tcpChecksum_sealSegment (src dst : IPv4Addr) {seg : Buffer} (h : 18 ≤ seg.length) :
    tcpChecksum src dst (sealSegment src dst seg) = 0 := by
  rw [sealSegment_eq_memWrite16, tcpChecksum_memWrite16 src dst _ h, ocAdd_compl]
  decide

/-! ### The commands -/

theorem oversizeSegment_of_admits {s : State} {n : Nat} (h : Admits s n) (hn : n ≤ 65535) :
    oversizeSegment s.cfg n = false := (oversizeSegment_eq_false_iff _ _).mpr ⟨h, hn⟩

theorem exec_tcpCsum_of_admitted (src dst : IPv4Addr) {seg : Buffer} {s : State} (hf : s.fatal = false)
    (h : oversizeSegment s.cfg seg.length = false) :
    exec (.tcpCsum src dst seg) s = .next (answered s .ok (some (.u16 (tcpChecksum src dst seg)))) :=
  (unlessFatal_of_ready hf).trans (admitSegment_of_admitted h)

theorem exec_tcpSeal_of_admitted (src dst : IPv4Addr) {seg : Buffer} {s : State} (hf : s.fatal = false)
    (h : oversizeSegment s.cfg seg.length = false) :
    exec (.tcpSeal src dst seg) s = .next (s.answerDecoded ((tcpSealed src dst seg).map .bytes)) :=
  (unlessFatal_of_ready hf).trans (admitSegment_of_admitted h)

theorem tcpSealed_of_lt (src dst : IPv4Addr) {seg : Buffer} (h : seg.length < 20) :
    tcpSealed src dst seg = .error .formatError := if_pos h

theorem tcpSealed_of_le (src dst : IPv4Addr) {seg : Buffer} (h : 20 ≤ seg.length) :
    tcpSealed src dst seg = .ok (sealSegment src dst seg) := if_neg (Nat.not_lt.mpr h)

theorem tcpSealed_ok {src dst : IPv4Addr} {seg out : Buffer} (h : tcpSealed src dst seg = .ok out) :
    20 ≤ seg.length ∧ out = sealSegment src dst seg := by
  unfold tcpSealed at h
  split at h
  · cases h
  · cases h; exact ⟨Nat.le_of_not_lt ‹_›, rfl⟩

/-- TCP_SEAL answers OK with a buffer only where the segment is admitted and was sealed to it. -/
theorem sealed_of_exec_tcpSeal {src dst : IPv4Addr} {seg out : Buffer} {s : State} (hf : s.fatal = false)
    (h : exec (.tcpSeal src dst seg) s = .next (answered s .ok (some (.bytes out)))) :
    oversizeSegment s.cfg seg.length = false ∧ tcpSealed src dst seg = .ok out := by
  obtain ⟨hadmit, hnext⟩ := admitSegment_next ((unlessFatal_of_ready hf).symm.trans h)
  obtain ⟨out', hsealed, htag⟩ := ok_of_answerDecoded_map (Host.Outcome.next.inj hnext)
  exact ⟨hadmit, by rwa [← Value.bytes.inj htag]⟩

/-- Settles O33: behind TCP_CSUM's two tests its value is the statement's by `tcpChecksum_eq_checksumOf`. -/
theorem tcpCsumCoversThePseudoHeader : Obligations.TcpCsumCoversThePseudoHeader := by
  refine fun src dst seg => ⟨decode_encode (.tcpCsum src dst seg) rfl,
    fun s hf => exec_of_fatal (.tcpCsum src dst seg) hf,
    fun s hf hn => refused_of_admitSegment hf (oversizeSegment_of_tooLong hn),
    fun s hf hn => refused_of_admitSegment hf (oversizeSegment_of_lt _ hn), fun s hf h hn => ?_⟩
  rw [exec_tcpCsum_of_admitted src dst hf (oversizeSegment_of_admits h hn), tcpChecksum_eq_checksumOf]

/-- Settles O34: behind TCP_SEAL's two tests a short segment is not sealed, and `sealSegment_eq_withField` gives the
bytes of the others. -/
theorem tcpSealPatchesTheChecksum : Obligations.TcpSealPatchesTheChecksum := by
  refine fun src dst seg => ⟨decode_encode (.tcpSeal src dst seg) rfl,
    fun s hf => exec_of_fatal (.tcpSeal src dst seg) hf,
    fun s hf hn => refused_of_admitSegment hf (oversizeSegment_of_tooLong hn),
    fun s hf hn => refused_of_admitSegment hf (oversizeSegment_of_lt _ hn), fun s hf h hn hlt => ?short,
    fun s hf h hn hle => ?sealed⟩
  case short =>
    rw [exec_tcpSeal_of_admitted src dst hf (oversizeSegment_of_admits h hn), tcpSealed_of_lt src dst hlt]; rfl
  case sealed =>
    rw [exec_tcpSeal_of_admitted src dst hf (oversizeSegment_of_admits h hn), tcpSealed_of_le src dst hle,
      sealSegment_eq_withField src dst (by omega)]
    rfl

/-- Settles O35: the sealed segment has the admitted length, and `tcpChecksum_sealSegment`. -/
theorem sealedSegmentsVerify : Obligations.SealedSegmentsVerify := by
  intro src dst seg out s hf h
  obtain ⟨hadmit, hsealed⟩ := sealed_of_exec_tcpSeal hf h
  obtain ⟨hlen, rfl⟩ := tcpSealed_ok hsealed
  rw [exec_tcpCsum_of_admitted src dst hf (by rwa [length_sealSegment]), tcpChecksum_sealSegment src dst (by omega)]

/-- Settles O36: `tcpChecksum_ne_allOnes` and `tcpChecksum_comm` of TCP_CSUM's answers. -/
theorem tcpCsumIsNeverAllOnes : Obligations.TcpCsumIsNeverAllOnes := by
  intro src dst seg s hf h hn
  have hadmit := oversizeSegment_of_admits h hn
  refine ⟨tcpChecksum src dst seg, exec_tcpCsum_of_admitted src dst hf hadmit, tcpChecksum_ne_allOnes src dst seg, ?_⟩
  rw [exec_tcpCsum_of_admitted dst src hf hadmit, tcpChecksum_comm]

end Sys2Proof.Machine

/-! The connection state machine (46_connection.md): what ON_SYN and ON_ACK answer in each case of R651 and R652, the
states without transitions, and the handshake as a run of the two handlers. -/

namespace Sys2Proof.Machine

open Sys2Proof.Claims

/-! ### ON_SYN -/

theorem exec_onSyn_of_ready (seg : TCPSegment) (rip : IPv4Addr) (rport : U16) {s : State} (hf : s.fatal = false) :
    exec (.onSyn seg rip rport) s = settle .tcpSegment (.ok (handleSyn seg rip rport s)) := unlessFatal_of_ready hf

/-- Outside LISTEN nothing is written and nothing is drawn (R651). -/
theorem exec_onSyn_of_ne_listen (seg : TCPSegment) (rip : IPv4Addr) (rport : U16) {s : State} (hf : s.fatal = false)
    (hl : s.conn.state ≠ .listen) :
    exec (.onSyn seg rip rport) s = .next (answered s .protocolMismatch none) := by
  rw [exec_onSyn_of_ready seg rip rport hf]
  obtain ⟨-, he⟩ | ⟨hl', -⟩ | ⟨_, hl', -⟩ := handleSyn_cases seg rip rport s
  · rw [he]; rfl
  · exact absurd hl' hl
  · exact absurd hl' hl

/-- EntropyFailure leaves the Connection as it was (R654). -/
theorem exec_onSyn_of_no_entropy (seg : TCPSegment) (rip : IPv4Addr) (rport : U16) {s : State} (hf : s.fatal = false)
    (hl : s.conn.state = .listen) (hd : entropyAnswer s = none) :
    exec (.onSyn seg rip rport) s = .next (answered (drawFailed s) .fatalEntropy none) := by
  rw [exec_onSyn_of_ready seg rip rport hf]
  obtain ⟨hn, -⟩ | ⟨-, -, he⟩ | ⟨_, -, hsome, -⟩ := handleSyn_cases seg rip rport s
  · exact absurd hl hn
  · rw [he]; rfl
  · exact nomatch hd.symm.trans hsome

/-- With an ISN drawn in LISTEN the connection is opened, and the SYN+ACK acknowledges seqNum + 1 (R651). -/
theorem exec_onSyn_of_isn (seg : TCPSegment) (rip : IPv4Addr) (rport : U16) {s : State} {isn : U32}
    (hf : s.fatal = false) (hl : s.conn.state = .listen) (hd : entropyAnswer s = some isn) :
    exec (.onSyn seg rip rport) s = .next (answered (synAccepted s seg.seqNum rip rport isn) .ok
      (some (.tcpSegment (synAck s rport isn (seg.seqNum + 1))))) := by
  rw [exec_onSyn_of_ready seg rip rport hf]
  obtain ⟨hn, -⟩ | ⟨-, hnone, -⟩ | ⟨isn', -, hsome, he⟩ := handleSyn_cases seg rip rport s
  · exact absurd hl hn
  · exact nomatch hd.symm.trans hnone
  · obtain rfl : isn' = isn := Option.some.inj (hsome.symm.trans hd)
    rw [he]; rfl

/-- Settles O37: behind the FATAL test, the three outcomes of ON_SYN. -/
theorem onSynOpensTheConnection : Obligations.OnSynOpensTheConnection := fun seg rip rport =>
  ⟨decode_encode (.onSyn seg rip rport) rfl, fun _ hf => exec_of_fatal (.onSyn seg rip rport) hf,
    fun _ hf => exec_onSyn_of_ne_listen seg rip rport hf, fun _ hf => exec_onSyn_of_no_entropy seg rip rport hf,
    fun _ _ hf => exec_onSyn_of_isn seg rip rport hf⟩

/-! ### ON_ACK -/

theorem exec_onAck_of_ready (seg : TCPSegment) {s : State} (hf : s.fatal = false) :
    exec (.onAck seg) s = settle .tcpSegment (handleAck seg s) := unlessFatal_of_ready hf

theorem exec_onAck_of_ne_synReceived (seg : TCPSegment) {s : State} (hf : s.fatal = false)
    (hl : s.conn.state ≠ .synReceived) :
    exec (.onAck seg) s = .next (answered s .protocolMismatch none) := by
  rw [exec_onAck_of_ready seg hf]
  obtain ⟨-, he⟩ | ⟨hl', -⟩ | ⟨_, hl', -⟩ | ⟨_, hl', -⟩ := handleAck_cases seg s
  · rw [he]; rfl
  · exact absurd hl' hl
  · exact absurd hl' hl
  · exact absurd hl' hl

section SynReceived
variable {s : State} {q : U32} (hf : s.fatal = false) (hl : s.conn.state = .synReceived)
  (hq : s.conn.sendSeq = .written q)
include hl hq

/-- With the counter at q, ON_ACK has two outcomes, by whether q + 1 is acknowledged (R652). -/
theorem handleAck_of_written (seg : TCPSegment) :
    (seg.ackNum ≠ q + 1 ∧ handleAck seg s = .ok ⟨.protocolMismatch, none, s⟩) ∨
    (seg.ackNum = q + 1 ∧ handleAck seg s = .ok ⟨.ok, none, s.acceptAck (q + 1)⟩) := by
  obtain ⟨hn, -⟩ | ⟨-, hu, -⟩ | ⟨q', -, hw, ha, he⟩ | ⟨q', -, hw, ha, he⟩ := handleAck_cases seg s
  · exact absurd hl hn
  · exact nomatch hq.symm.trans hu
  · obtain rfl : q' = q := Reg.written.inj (hw.symm.trans hq)
    exact .inl ⟨ha, he⟩
  · obtain rfl : q' = q := Reg.written.inj (hw.symm.trans hq)
    exact .inr ⟨ha, he⟩

include hf

theorem exec_onAck_of_ackNum_ne {seg : TCPSegment} (ha : seg.ackNum ≠ q + 1) :
    exec (.onAck seg) s = .next (answered s .protocolMismatch none) := by
  rw [exec_onAck_of_ready seg hf]
  obtain ⟨-, he⟩ | ⟨ha', -⟩ := handleAck_of_written hl hq seg
  · rw [he]; rfl
  · exact absurd ha' ha

theorem exec_onAck_of_ackNum_eq {seg : TCPSegment} (ha : seg.ackNum = q + 1) :
    exec (.onAck seg) s = .next (answered (ackAccepted s q) .ok none) := by
  rw [exec_onAck_of_ready seg hf]
  obtain ⟨ha', -⟩ | ⟨-, he⟩ := handleAck_of_written hl hq seg
  · exact absurd ha ha'
  · rw [he]; rfl

end SynReceived

/-- Settles O38: behind the FATAL test, the outcomes of ON_ACK that need no UNWRITTEN register. -/
theorem onAckEstablishesTheConnection : Obligations.OnAckEstablishesTheConnection := fun seg =>
  ⟨decode_encode (.onAck seg) rfl, fun _ hf => exec_of_fatal (.onAck seg) hf,
    fun _ hf => exec_onAck_of_ne_synReceived seg hf, fun _ _ hf hl hq ha => exec_onAck_of_ackNum_ne hf hl hq ha,
    fun _ _ hf hl hq ha => exec_onAck_of_ackNum_eq hf hl hq ha⟩

/-! ### What the handlers read of a segment -/

theorem handleSyn_congr {a b : TCPSegment} (h : a.seqNum = b.seqNum) (rip : IPv4Addr) (rport : U16) (s : State) :
    handleSyn a rip rport s = handleSyn b rip rport s := by
  simp only [handleSyn, h]

theorem handleAck_congr {a b : TCPSegment} (h : a.ackNum = b.ackNum) (s : State) : handleAck a s = handleAck b s := by
  simp only [handleAck, h]

/-- Settles O42: each command is its handler behind the FATAL test, and the handler reads one field of its segment. -/
theorem handlersReadOneSegmentField : Obligations.HandlersReadOneSegmentField := by
  constructor
  · intro s a b rip rport h
    exact congrArg (fun x => unlessFatal s (settle .tcpSegment (.ok x))) (handleSyn_congr h rip rport s)
  · intro s a b h
    exact congrArg (fun x => unlessFatal s (settle .tcpSegment x)) (handleAck_congr h s)

/-! ### The states without transitions -/

/-- Neither handler has a transition from ESTABLISHED or from a state of R653. -/
theorem ne_of_mem_established_unimplemented :
    ∀ st ∈ ConnState.established :: unimplemented, st ≠ .listen ∧ st ≠ .synReceived := by decide

/-- Settles O40: the transitions of `onlyHandshakeTransitions` start in LISTEN and in SYN_RECEIVED and end in
SYN_RECEIVED and in ESTABLISHED. -/
theorem unimplementedStatesHaveNoTransitions : Obligations.UnimplementedStatesHaveNoTransitions := by
  refine ⟨fun s hf hs => ?mismatch, fun i s t h ht => ?enters, fun i s t h hs => ?leaves⟩
  case mismatch =>
    obtain ⟨hnl, hnr⟩ := ne_of_mem_established_unimplemented _ (List.mem_cons_of_mem _ hs)
    exact ⟨fun seg rip rport => exec_onSyn_of_ne_listen seg rip rport hf hnl,
      fun seg => exec_onAck_of_ne_synReceived seg hf hnr⟩
  case enters =>
    obtain hc | ⟨-, -, rip, rport, isn, rn, hc⟩ | ⟨-, q, -, hc⟩ := onlyHandshakeTransitions i s t h
    · rw [hc]
    · rw [hc] at ht; exact absurd ht (by decide : ConnState.synReceived ∉ unimplemented)
    · rw [hc] at ht; exact absurd ht (by decide : ConnState.established ∉ unimplemented)
  case leaves =>
    obtain ⟨hnl, hnr⟩ := ne_of_mem_established_unimplemented _ hs
    obtain hc | ⟨hl, -⟩ | ⟨hl, -⟩ := onlyHandshakeTransitions i s t h
    · exact hc
    · exact absurd hl hnl
    · exact absurd hl hnr

/-! ### The handshake -/

/-- A run of commands that each answer a next state with `P` from a state with `P` answers a state with `P`. -/
theorem foldl_some_of_keeps {P : State → Prop} {run : Option State → TCPSegment → Option State} :
    ∀ {segs : List TCPSegment} {s : State}, P s →
      (∀ w ∈ segs, ∀ x, P x → ∃ y, run (some x) w = some y ∧ P y) → ∃ u, segs.foldl run (some s) = some u ∧ P u
  | [], s, hs, _ => ⟨s, rfl, hs⟩
  | w :: segs, s, hs, hrun => by
    obtain ⟨y, hy, hPy⟩ := hrun w List.mem_cons_self s hs
    rw [List.foldl_cons, hy]
    exact foldl_some_of_keeps hPy fun w' hw' => hrun w' (List.mem_cons_of_mem _ hw')

/-- A state that differs from `s` at most in its answer. -/
def OnlyAnswered (s x : State) : Prop := ∃ st r, x = answered s st r

/-- Settles O41: a wrong acknowledgment only answers, so any number of them leaves what ON_SYN wrote, and the right one
is accepted there. -/
theorem handshakeRunsToEstablished : Obligations.HandshakeRunsToEstablished := by
  intro s syn rip rport isn hf hl hd
  refine ⟨_, _, exec_onSyn_of_isn syn rip rport hf hl hd, rfl, rfl, rfl, rfl, fun wrong ack hwrong hack => ?_⟩
  simp only [exists_and_left]
  refine (foldl_some_of_keeps (P := OnlyAnswered (synAccepted s syn.seqNum rip rport isn)) ?opened ?wrong).imp
    fun u ⟨hrun, hu⟩ => ⟨hrun, ?right⟩
  case opened => exact ⟨_, _, rfl⟩
  case wrong =>
    rintro w hw _ ⟨st, r, rfl⟩
    have hx : exec (.onAck w) (answered (synAccepted s syn.seqNum rip rport isn) st r) =
        .next (answered (synAccepted s syn.seqNum rip rport isn) .protocolMismatch none) :=
      exec_onAck_of_ackNum_ne (by exact hf) rfl rfl (hwrong w hw)
    exact ⟨answered _ .protocolMismatch none, by simp only [hx], _, _, rfl⟩
  case right =>
    obtain ⟨st, r, rfl⟩ := hu
    exact ⟨rfl, _, exec_onAck_of_ackNum_eq (by exact hf) rfl rfl hack, rfl, rfl,
      fun again rip' rport' => exec_onSyn_of_ne_listen again rip' rport' (by exact hf) nofun⟩

end Sys2Proof.Machine

/-! Dispatch and the frame pipeline (47_dispatch_pipeline.md): which handler DISPATCH selects, the bytes of the reply of
R703 and why its two checksums verify, and RX_FRAME as DISPATCH of the frame's segment followed by the reply. -/

namespace Sys2Proof.Machine

open Sys2Proof.Claims

/-! ### DISPATCH -/

theorem exec_dispatch_of_ready (seg : TCPSegment) (sip : IPv4Addr) {s : State} (hf : s.fatal = false) :
    exec (.dispatch seg sip) s = settle .tcpSegment (dispatchSegment seg sip s) := unlessFatal_of_ready hf

/-- The port is tested before the flags (R700). -/
theorem exec_dispatch_of_port_ne {seg : TCPSegment} (sip : IPv4Addr) {s : State} (hf : s.fatal = false)
    (hp : seg.dstPort ≠ s.conn.localPort) :
    exec (.dispatch seg sip) s = .next (answered s .droppedPort none) := by
  rw [exec_dispatch_of_ready seg sip hf, dispatchSegment, if_pos hp]; rfl

section LocalPort
variable {seg : TCPSegment} (sip : IPv4Addr) {s : State} (hf : s.fatal = false) (hp : seg.dstPort = s.conn.localPort)
include hf hp

/-- SYN is tested before ACK (R700). -/
theorem exec_dispatch_of_syn (hs : hasFlag seg .syn = true) :
    exec (.dispatch seg sip) s = exec (.onSyn seg sip seg.srcPort) s := by
  rw [exec_dispatch_of_ready seg sip hf, exec_onSyn_of_ready seg sip seg.srcPort hf, dispatchSegment,
    if_neg (not_not_intro hp), if_pos hs]

theorem exec_dispatch_of_ack (hs : hasFlag seg .syn = false) (ha : hasFlag seg .ack = true) :
    exec (.dispatch seg sip) s = exec (.onAck seg) s := by
  rw [exec_dispatch_of_ready seg sip hf, exec_onAck_of_ready seg hf, dispatchSegment, if_neg (not_not_intro hp),
    if_neg (ne_true_of_eq_false hs), if_pos ha]

theorem exec_dispatch_of_neither (hs : hasFlag seg .syn = false) (ha : hasFlag seg .ack = false) :
    exec (.dispatch seg sip) s = .next (answered s .unhandledFlags none) := by
  rw [exec_dispatch_of_ready seg sip hf, dispatchSegment, if_neg (not_not_intro hp),
    if_neg (ne_true_of_eq_false hs), if_neg (ne_true_of_eq_false ha)]
  rfl

/-- In LISTEN with an ISN, a SYN to the local port opens the connection to its sender (R651, R700). -/
theorem exec_dispatch_of_isn {isn : U32} (hs : hasFlag seg .syn = true) (hl : s.conn.state = .listen)
    (hd : entropyAnswer s = some isn) :
    exec (.dispatch seg sip) s = .next (answered (synAccepted s seg.seqNum sip seg.srcPort isn) .ok
      (some (.tcpSegment (synAck s seg.srcPort isn (seg.seqNum + 1))))) := by
  rw [exec_dispatch_of_syn sip hf hp hs, exec_onSyn_of_isn seg sip seg.srcPort hf hl hd]

end LocalPort

/-- Settles O43: behind the FATAL test, the four selections. -/
theorem dispatchSelectsTheHandler : Obligations.DispatchSelectsTheHandler := fun seg sip =>
  ⟨decode_encode (.dispatch seg sip) rfl, fun _ hf => exec_of_fatal (.dispatch seg sip) hf,
    fun _ hf hp => exec_dispatch_of_port_ne sip hf hp, fun _ hf hp hs => exec_dispatch_of_syn sip hf hp hs,
    fun _ hf hp hs ha => exec_dispatch_of_ack sip hf hp hs ha,
    fun _ hf hp hs ha => exec_dispatch_of_neither sip hf hp hs ha⟩

/-- Settles O44: the selected handler opens the connection, or establishes it. -/
theorem dispatchCompletesTheHandshake : Obligations.DispatchCompletesTheHandshake := by
  refine ⟨fun s seg sip isn hf hl hd hp hs => exec_dispatch_of_isn sip hf hp hs hl hd, ?ack⟩
  case ack =>
    intro s seg sip q hf hl hq hp hs ha hack
    rw [exec_dispatch_of_ack sip hf hp hs ha, exec_onAck_of_ackNum_eq hf hl hq hack]

/-! ### The bytes of a reply -/

/-- The decoded addresses are the frame's first twelve bytes, written back in the other order (R703). -/
theorem ethEncode_swapped_eq_replyEth {frame : Buffer} {eth : EthernetFrame} (h : ethDecode frame = .ok eth) :
    ethEncode { dst := eth.src, src := eth.dst, etherType := Config.etherTypeIPv4 } = replyEth frame := by
  obtain ⟨hlen, rfl⟩ := ethDecode_ok h
  have htype : bytesOf16 Config.etherTypeIPv4 = [0x08, 0x00] := by decide
  rw [ethEncode, macBytes_macAt (by omega), macBytes_macAt (by omega), List.drop_zero, htype, replyEth]

/-- Writing bytes 10-11 of an encoded IPv4 header sets its checksum field (R311). -/
theorem memWrite16_ip4Encode (h : IPv4Header) (v : U16) :
    memWrite16 (ip4Encode h) 10 v = ip4Encode { h with checksum := v } := by
  rw [ip4Encode_eq, ip4Encode_eq]; rfl

/-- Writing bytes 16-17 of a TCP header sets its checksum field (R313). -/
theorem memWrite16_tcpBytes (seg : TCPSegment) (ck v : U16) : memWrite16 (tcpBytes seg ck) 16 v = tcpBytes seg v :=
  memWrite16_eq_withField v (Nat.le_add_right 18 2)

theorem patchIp4Checksum_replyHeader (p : Params) (src dst : IPv4Addr) :
    patchIp4Checksum (ip4Encode (replyHeader p src dst 20)) =
      replyIp p src dst (checksumOf (replyIp p src dst 0)) := by
  rw [patchIp4Checksum, memWrite16_ip4Encode, csumValue_eq_checksumOf, ip4Encode_eq_ip4Bytes, ip4Encode_eq_ip4Bytes]
  rfl

theorem sealSegment_tcpEncode (src dst : IPv4Addr) (r : TCPSegment) :
    sealSegment src dst (tcpEncode r) = tcpBytes r (checksumOf (pseudoOf src dst 20 ++ tcpBytes r 0)) := by
  rw [sealSegment_eq_memWrite16, tcpEncode_eq_tcpBytes, memWrite16_tcpBytes, memWrite16_tcpBytes,
    tcpChecksum_eq_checksumOf]
  rfl

theorem replyFrame_eq_replyBytes {frame : Buffer} {eth : EthernetFrame} (h : ethDecode frame = .ok eth) (p : Params)
    (src dst : IPv4Addr) (r : TCPSegment) : replyFrame p src dst eth r = replyBytes p src dst frame r := by
  rw [replyFrame, length_sealSegment, length_tcpEncode, ethEncode_swapped_eq_replyEth h,
    patchIp4Checksum_replyHeader, sealSegment_tcpEncode, replyBytes]

/-! ### The reply's parts and its checksums -/

theorem length_replyEth {frame : Buffer} (h : 14 ≤ frame.length) : (replyEth frame).length = 14 := by
  simp only [replyEth, List.length_append, List.length_take, List.length_drop, List.length_cons, List.length_nil]
  omega

theorem length_replyIp (p : Params) (src dst : IPv4Addr) (ck : U16) : (replyIp p src dst ck).length = 20 := rfl

/-- Version 4 with IHL 5, total length 40 and protocol 6 (R703). -/
theorem replyIp_fixed_bytes (p : Params) (src dst : IPv4Addr) (ck : U16) :
    (replyIp p src dst ck).getD 0 0 = 0x45 ∧ (replyIp p src dst ck).getD 2 0 = 0 ∧
      (replyIp p src dst ck).getD 3 0 = 40 ∧ (replyIp p src dst ck).getD 9 0 = 6 := by
  have htotal : hi (40 : U16) = 0 := by decide
  exact ⟨rfl, htotal, rfl, rfl⟩

section ReplyBytes
variable (p : Params) (src dst : IPv4Addr) {frame : Buffer} (r : TCPSegment) (h : 14 ≤ frame.length)
include h

theorem length_replyBytes : (replyBytes p src dst frame r).length = 54 := by
  rw [replyBytes, List.length_append, List.length_append, length_replyEth h]
  rfl

/-- Behind the Ethernet header stand the IPv4 header and the segment (R703). -/
theorem drop_replyBytes : (replyBytes p src dst frame r).drop 14 =
    replyIp p src dst (checksumOf (replyIp p src dst 0)) ++
      tcpBytes r (checksumOf (pseudoOf src dst 20 ++ tcpBytes r 0)) := by
  rw [replyBytes, List.append_assoc]
  exact List.drop_left' (length_replyEth h)

theorem header_of_replyBytes : ((replyBytes p src dst frame r).drop 14).take 20 =
    replyIp p src dst (checksumOf (replyIp p src dst 0)) := by
  rw [drop_replyBytes p src dst r h]
  exact List.take_left' (length_replyIp ..)

theorem segment_of_replyBytes : (replyBytes p src dst frame r).drop 34 =
    tcpBytes r (checksumOf (pseudoOf src dst 20 ++ tcpBytes r 0)) := by
  rw [← List.drop_drop (i := 20) (j := 14), drop_replyBytes p src dst r h]
  exact List.drop_left' (length_replyIp ..)

/-- The first bytes of the IPv4 header, found at their place in the frame. -/
theorem getD_replyBytes {k : Nat} (hk : k < 20) : (replyBytes p src dst frame r).getD (14 + k) 0 =
    (replyIp p src dst (checksumOf (replyIp p src dst 0))).getD k 0 := by
  rw [← byteAt_drop, drop_replyBytes p src dst r h]
  exact List.getD_append _ _ _ _ hk

end ReplyBytes

/-- A word in an even place that is the checksum of the buffer with zeros there makes the buffer's checksum 0 (R405,
R703). -/
theorem csumValue_memWrite16_csumValue {buf : Buffer} {off : Nat} (h : off + 2 ≤ buf.length) (heven : off % 2 = 0) :
    csumValue (memWrite16 buf off (csumValue (memWrite16 buf off 0))) = 0 := by
  rw [csumValue_eq, onesSum_memWrite16 _ h heven, csumValue_eq, ocAdd_comm, ocAdd_compl]
  decide

theorem checksumOf_replyIp (p : Params) (src dst : IPv4Addr) :
    checksumOf (replyIp p src dst (checksumOf (replyIp p src dst 0))) = 0 := by
  have hzero : memWrite16 (ip4Encode (replyHeader p src dst 20)) 10 0 = ip4Encode (replyHeader p src dst 20) :=
    memWrite16_ip4Encode _ 0
  have hsum := csumValue_memWrite16_csumValue (buf := ip4Encode (replyHeader p src dst 20)) (off := 10)
    (by simp) rfl
  rw [← patchIp4Checksum_replyHeader, ← csumValue_eq_checksumOf, patchIp4Checksum]
  rwa [hzero] at hsum

theorem checksumOf_reply_segment (src dst : IPv4Addr) (r : TCPSegment) :
    checksumOf (pseudoOf src dst 20 ++ tcpBytes r (checksumOf (pseudoOf src dst 20 ++ tcpBytes r 0))) = 0 := by
  have hseal := tcpChecksum_sealSegment src dst (seg := tcpEncode r) (by simp)
  rwa [tcpChecksum_eq_checksumOf, length_sealSegment, length_tcpEncode, sealSegment_tcpEncode] at hseal

/-! ### RX_FRAME -/

/-- A transaction with a response is that of an accepted SYN (R704). -/
theorem accepted_of_response {seg r : TCPSegment} {sip : IPv4Addr} {s : State} {t : Txn TCPSegment}
    (h : dispatchSegment seg sip s = .ok t) (hr : t.result = some r) :
    ∃ isn, seg.dstPort = s.conn.localPort ∧ hasFlag seg .syn = true ∧ s.conn.state = .listen ∧
      entropyAnswer s = some isn ∧ t = ⟨.ok, some (synAckSegment s seg.srcPort isn (seg.seqNum + 1)),
        s.drawn.acceptSyn sip seg.srcPort isn (seg.seqNum + 1)⟩ := by
  obtain ⟨-, -, hn, -⟩ | ⟨-, -, rfl⟩ | hsyn | ⟨q, -, -, rfl⟩ := dispatchSegment_ok h
  · exact nomatch hn.symm.trans hr
  · exact nomatch hr
  · exact hsyn
  · exact nomatch hr

/-- Without a response there is nothing to build (R701). -/
theorem replyTo_of_result_none (eth : EthernetFrame) {t : Txn TCPSegment} (h : t.result = none) :
    replyTo eth t = .ok ⟨t.status, none, t.after⟩ := by
  obtain ⟨st, r, u⟩ := t
  cases h
  cases st <;> rfl

section Ethernet
variable {frame : Buffer} {s : State} (hf : s.fatal = false) (hl : s.cfg.linkType = .ethernet)
  (hn : Admits s frame.length)
include hf hl hn

theorem exec_rxFrame_of_ready : exec (.rxFrame frame) s = settle .bytes (processFrame frame s) := by
  rw [exec_rxFrame_of_admits hn, unlessFatal_of_ready hf, admitLink_of_ethernet hl]

theorem exec_rxFrame_of_not_parses (hp : ¬ Parses frame) :
    exec (.rxFrame frame) s = .next (answered s .formatError none) := by
  rw [exec_rxFrame_of_ready hf hl hn]
  obtain ⟨-, he⟩ | ⟨hp', -⟩ := processFrame_cases frame s
  · rw [he]; rfl
  · exact absurd hp' hp

/-- The end of RX_FRAME on a frame that parses: what is dispatched is answered (R701). -/
theorem exec_rxFrame_of_parses (hp : Parses frame) : ∃ eth, ethDecode frame = .ok eth ∧ exec (.rxFrame frame) s =
    settle .bytes ((dispatchSegment (frameSegment frame) (frameSource frame) s).bind (replyTo eth)) := by
  rw [exec_rxFrame_of_ready hf hl hn]
  obtain ⟨hp', -⟩ | ⟨-, eth, heth, he⟩ := processFrame_cases frame s
  · exact absurd hp hp'
  · exact ⟨eth, heth, by rw [he]⟩

section Parses
variable (hp : Parses frame)
include hp

theorem exec_rxFrame_of_dispatch_fault {f : Fault}
    (h : exec (.dispatch (frameSegment frame) (frameSource frame)) s = .fault f) :
    exec (.rxFrame frame) s = .fault f := by
  obtain ⟨eth, -, hx⟩ := exec_rxFrame_of_parses hf hl hn hp
  rw [exec_dispatch_of_ready _ _ hf] at h
  rw [hx, settle_fault h]
  rfl

/-- With no response segment RX_FRAME answers what DISPATCH answers (R704). -/
theorem exec_rxFrame_of_no_response {t : State} {st : Status}
    (h : exec (.dispatch (frameSegment frame) (frameSource frame)) s = .next t)
    (hr : t.response = some ⟨st, none⟩) : exec (.rxFrame frame) s = .next t := by
  obtain ⟨eth, -, hx⟩ := exec_rxFrame_of_parses hf hl hn hp
  rw [exec_dispatch_of_ready _ _ hf] at h
  obtain ⟨x, hd, rfl⟩ := settle_next h
  obtain ⟨-, hnone⟩ : x.status = st ∧ x.result = none := by simpa using hr
  have hbind : (Except.ok x : Except Fault _).bind (replyTo eth) = .ok ⟨x.status, none, x.after⟩ :=
    replyTo_of_result_none eth hnone
  rw [hx, hd, hbind, hnone]
  rfl

/-- A response segment becomes the frame of R703, from the local address to the frame's source. -/
theorem exec_rxFrame_of_response {t : State} {st : Status} {r : TCPSegment}
    (h : exec (.dispatch (frameSegment frame) (frameSource frame)) s = .next t)
    (hr : t.response = some ⟨st, some (.tcpSegment r)⟩) :
    exec (.rxFrame frame) s = .next (answered t .ok (some (.bytes
      (replyBytes s.cfg s.conn.localIP (frameSource frame) frame r)))) := by
  obtain ⟨eth, heth, hx⟩ := exec_rxFrame_of_parses hf hl hn hp
  rw [exec_dispatch_of_ready _ _ hf] at h
  obtain ⟨x, hd, rfl⟩ := settle_next h
  obtain ⟨-, hsome⟩ : x.status = st ∧ x.result = some r := by simpa using hr
  obtain ⟨isn, -, -, -, -, rfl⟩ := accepted_of_response hd hsome
  cases hsome
  rw [hx, hd, ← replyFrame_eq_replyBytes heth]
  rfl

theorem exec_rxFrame_of_syn {isn : U32} (hs : s.conn.state = .listen) (hd : entropyAnswer s = some isn)
    (hport : (frameSegment frame).dstPort = s.conn.localPort) (hsyn : hasFlag (frameSegment frame) .syn = true) :
    exec (.rxFrame frame) s = .next (answered
      (synAccepted s (frameSegment frame).seqNum (frameSource frame) (frameSegment frame).srcPort isn) .ok
      (some (.bytes (replyBytes s.cfg s.conn.localIP (frameSource frame) frame
        (synAck s (frameSegment frame).srcPort isn ((frameSegment frame).seqNum + 1)))))) := by
  have hdispatch := exec_dispatch_of_isn (frameSource frame) hf hport hsyn hs hd
  exact (exec_rxFrame_of_response hf hl hn hp hdispatch rfl :)

end Parses

end Ethernet

/-- Settles O45: the two refusals are those of O15; then a short frame, and the three outcomes of DISPATCH. -/
theorem rxFrameRunsDispatch : Obligations.RxFrameRunsDispatch := by
  obtain ⟨-, -, -, -, -, -, -, hoversize, hlink⟩ := refusedCommandsHaveNoStep
  exact fun frame => ⟨decode_encode (.rxFrame frame) rfl, fun _ hf => exec_of_fatal (.rxFrame frame) hf, hlink frame,
    hoversize frame, fun _ hf hl hn hp => exec_rxFrame_of_not_parses hf hl hn hp,
    fun _ hf hl hn hp => ⟨fun _ => exec_rxFrame_of_dispatch_fault hf hl hn hp,
      fun _ _ => exec_rxFrame_of_no_response hf hl hn hp, fun _ _ _ => exec_rxFrame_of_response hf hl hn hp⟩⟩

/-- Settles O46: `exec_rxFrame_of_syn`. -/
theorem rxFrameAnswersASyn : Obligations.RxFrameAnswersASyn := fun _ _ _ hf hl hn hp hs hd hport hsyn =>
  exec_rxFrame_of_syn hf hl hn hp hs hd hport hsyn

/-! ### What RX_FRAME returns -/

/-- A result of RX_FRAME is the reply to an accepted SYN, whose frame parses: no other outcome has a result (R704). -/
theorem exec_rxFrame_result {frame : Buffer} {s t : State} {st : Status} {v : Value}
    (h : exec (.rxFrame frame) s = .next t) (hv : t.response = some ⟨st, some v⟩) :
    Parses frame ∧ s.conn.state = .listen ∧ (frameSegment frame).dstPort = s.conn.localPort ∧
      hasFlag (frameSegment frame) .syn = true ∧ ∃ isn, t = answered
        (synAccepted s (frameSegment frame).seqNum (frameSource frame) (frameSegment frame).srcPort isn) .ok
        (some (.bytes (replyBytes s.cfg s.conn.localIP (frameSource frame) frame
          (synAck s (frameSegment frame).srcPort isn ((frameSegment frame).seqNum + 1))))) := by
  obtain ⟨-, rfl⟩ | ⟨hf, hk⟩ := unlessFatal_next h
  · exact nomatch hv
  obtain ⟨hl, hk⟩ := admitLink_next hk
  obtain ⟨hn, hk⟩ := admitBuffer_next hk
  obtain ⟨x, hx, rfl⟩ := settle_next hk
  obtain ⟨-, he⟩ | ⟨hp, eth, -, he⟩ := processFrame_cases frame s
  · rw [he] at hx; cases hx; exact nomatch hv
  rw [he] at hx
  cases hd : dispatchSegment (frameSegment frame) (frameSource frame) s with
  | error f => rw [hd] at hx; exact nomatch hx
  | ok y =>
    rw [hd] at hx
    obtain ⟨-, -, hnone⟩ := replyTo_ok hx
    cases hr : y.result with
    | none => rw [hnone hr] at hv; exact nomatch hv
    | some r =>
      obtain ⟨isn, hport, hsyn, hs, hisn, -⟩ := accepted_of_response hd hr
      have hreply := exec_rxFrame_of_syn hf hl ((oversize_eq_false_iff _ _).mp hn) hp hs hisn hport hsyn
      exact ⟨hp, hs, hport, hsyn, isn, Host.Outcome.next.inj (h.symm.trans hreply)⟩

/-- Settles O48: `exec_rxFrame_result`. -/
theorem onlyAnAcceptedSynIsAnswered : Obligations.OnlyAnAcceptedSynIsAnswered := by
  intro s t frame st v h hv
  obtain ⟨-, hs, hport, hsyn, isn, rfl⟩ := exec_rxFrame_result h hv
  cases hv
  exact ⟨rfl, hs, rfl, ⟨_, rfl⟩, hsyn, hport⟩

/-- Settles O47: the reply is 14, 20 and 20 bytes, of which the last two parts verify by `checksumOf_replyIp` and
`checksumOf_reply_segment`. -/
theorem repliesVerify : Obligations.RepliesVerify := by
  intro s t frame out h hv
  obtain ⟨⟨hlen, -⟩, -, -, -, isn, rfl⟩ := exec_rxFrame_result h hv
  cases hv
  have h14 : 14 ≤ frame.length := by omega
  have hbyte {k : Nat} (hk : k < 20) := getD_replyBytes s.cfg s.conn.localIP (frameSource frame)
    (synAck s (frameSegment frame).srcPort isn ((frameSegment frame).seqNum + 1)) h14 hk
  obtain ⟨h0, h2, h3, h9⟩ := replyIp_fixed_bytes s.cfg s.conn.localIP (frameSource frame)
    (checksumOf (replyIp s.cfg s.conn.localIP (frameSource frame) 0))
  refine ⟨length_replyBytes _ _ _ _ h14, ?header, ?segment, rfl, (hbyte (k := 0) (by decide)).trans h0,
    (hbyte (k := 2) (by decide)).trans h2, (hbyte (k := 3) (by decide)).trans h3,
    (hbyte (k := 9) (by decide)).trans h9⟩
  case header => rw [header_of_replyBytes _ _ _ _ h14, checksumOf_replyIp]
  case segment =>
    rw [segment_of_replyBytes _ _ _ _ h14]
    exact checksumOf_reply_segment ..

end Sys2Proof.Machine

/-! Reset and the idle step (70_reset_and_hazards.md, 60_exceptions.md R820): what a reset event and an empty stream
make of the state, and that nothing but a reset leads back to LISTEN or out of FATAL. -/

namespace Sys2Proof.Machine

open Sys2Proof.Claims

/-! ### The step without a command -/

theorem nextEvent_of_nil {s : State} (h : s.inputs = []) : nextEvent s = none := by
  simp [nextEvent, h]

/-- Settles O7: there is no next event, and `step` answers the state itself. -/
theorem idleStepHoldsTheState : Obligations.IdleStepHoldsTheState := by
  intro s h
  simp only [step, nextEvent_of_nil h]

theorem step_of_reset {s : State} {ip : IPv4Addr} {port : U16} {rest : List HostEvent}
    (h : s.inputs = .reset ip port :: rest) : step s = .next (State.hardReset { s with inputs := rest } ip port) := by
  simp only [step, nextEvent_of_inputs h]

/-- Settles O8: both states hold `Connection.atReset` of their parameters. -/
theorem resetLeavesTheResetValues : Obligations.ResetLeavesTheResetValues :=
  ⟨fun _ => ⟨rfl, rfl, rfl⟩, fun _ _ _ _ hin => ⟨_, step_of_reset hin, rfl, rfl, rfl⟩⟩

/-! ### What only a reset does -/

/-- A command under FATAL leaves FATAL set: it only answers (R812). -/
theorem exec_keeps_fatal {i : Instr} {s t : State} (hf : s.fatal = true) (h : exec i s = .next t) :
    t.fatal = true := by
  rw [exec_of_fatal i hf] at h
  cases h
  exact hf

/-- FATAL is left by a reset alone (R812, R814). -/
theorem resetNext_of_fatal_cleared {s t : State} (h : step s = .next t) (hs : s.fatal = true) (ht : t.fatal = false) :
    s.resetNext := by
  obtain ⟨-, rfl⟩ | ⟨ip, port, rest, hin, -⟩ | ⟨c, rest, i, -, -, hx⟩ | ⟨c, rest, -, -, rfl⟩ := step_next h
  · exact nomatch hs.symm.trans ht
  · exact resetNext_of_inputs hin
  · exact nomatch (exec_keeps_fatal (by exact hs) hx).symm.trans ht
  · exact nomatch hs.symm.trans ht

/-- No command leads to LISTEN: the transitions end in SYN_RECEIVED and in ESTABLISHED (R651, R652). -/
theorem exec_ne_listen {i : Instr} {s t : State} (hs : s.conn.state ≠ .listen) (h : exec i s = .next t) :
    t.conn.state ≠ .listen := by
  obtain hc | ⟨-, -, rip, rport, isn, rn, hc⟩ | ⟨-, q, -, hc⟩ := onlyHandshakeTransitions i s t h
  · rwa [hc]
  · rw [hc]; nofun
  · rw [hc]; nofun

/-- LISTEN is entered by a reset alone (R902). -/
theorem resetNext_of_enters_listen {s t : State} (h : step s = .next t) (hs : s.conn.state ≠ .listen)
    (ht : t.conn.state = .listen) : s.resetNext := by
  obtain ⟨-, rfl⟩ | ⟨ip, port, rest, hin, -⟩ | ⟨c, rest, i, -, -, hx⟩ | ⟨c, rest, -, -, rfl⟩ := step_next h
  · exact absurd ht hs
  · exact resetNext_of_inputs hin
  · exact absurd ht (exec_ne_listen (by exact hs) hx)
  · exact absurd ht hs

/-- Settles O9: `resetNext_of_enters_listen` and `resetNext_of_fatal_cleared`. -/
theorem onlyResetReturnsToListen : Obligations.OnlyResetReturnsToListen := fun _ _ h =>
  ⟨resetNext_of_enters_listen h, resetNext_of_fatal_cleared h⟩

end Sys2Proof.Machine

/-! The exceptions (60_exceptions.md): what FATAL makes of every command, what sets it, and which commands are
refused. -/

namespace Sys2Proof.Machine

open Sys2Proof.Claims

/-! ### FATAL -/

theorem rejectTransaction_of_fatal {s : State} (h : s.fatal = true) (e : DecodeError) :
    rejectTransaction s e = .next (answered s .fatalEntropy none) := by
  cases e with
  | operandTypes op => exact unlessFatal_of_fatal h

/-- Under FATAL a command is answered whether or not its operands fit it: they are not read (R811, R812). -/
theorem step_command_of_fatal {s : State} {c : Command} {rest : List HostEvent} (hf : s.fatal = true)
    (hin : s.inputs = .command c :: rest) :
    step s = .next (answered { s with inputs := rest } .fatalEntropy none) := by
  cases hdec : decode c with
  | ok i => exact (stepRunsTheDecodedCommand s c rest i hin hdec).trans (exec_of_fatal i hf)
  | error e => exact (step_of_decode_error hin hdec).trans (rejectTransaction_of_fatal (by exact hf) e)

/-- Settles O11: `exec_of_fatal`, `step_command_of_fatal`, and the two directions of a reset. -/
theorem fatalAnswersEveryCommand : Obligations.FatalAnswersEveryCommand :=
  ⟨fun i _ hf => exec_of_fatal i hf, fun _ _ _ hf hin => step_command_of_fatal hf hin,
    fun _ _ hf h ht => resetNext_of_fatal_cleared h hf ht, fun _ _ _ _ hin => ⟨_, step_of_reset hin, rfl⟩⟩

/-- Settles O12: of the effects of a command only the failed draw sets FATAL, and ON_SYN in LISTEN has it. -/
theorem fatalComesFromAFailedDraw : Obligations.FatalComesFromAFailedDraw := by
  constructor
  · intro i s t h hf ht
    obtain ⟨hs, -⟩ | ⟨-, he⟩ := exec_next h
    · exact nomatch hf.symm.trans hs
    cases he with
    | answered => exact nomatch hf.symm.trans ht
    | drawFailed hi hl hd => exact ⟨hi, hl, hd, rfl⟩
    | synAccepted => exact nomatch hf.symm.trans ht
    | ackAccepted => exact nomatch hf.symm.trans ht
  · intro s seg rip rport hf hl hd
    exact ⟨_, exec_onSyn_of_no_entropy seg rip rport hf hl hd, rfl, rfl⟩

/-! ### Refusals -/

section Refused
variable {s : State} {r : Refusal} {n : Nat} {k : Result}

theorem tooLong_of_oversize (h : oversize s.cfg n = true) : TooLong s n := by
  unfold oversize at h
  split at h
  · cases h
  · exact ⟨_, ‹_›, of_decide_eq_true h⟩

theorem of_oversizeSegment (h : oversizeSegment s.cfg n = true) : TooLong s n ∨ 65535 < n := by
  rw [oversizeSegment, Bool.or_eq_true, decide_eq_true_eq] at h
  exact h.imp_left tooLong_of_oversize

theorem unlessFatal_refused (h : unlessFatal s k = .refused r) : k = .refused r := by
  unfold unlessFatal at h
  split at h
  · cases h
  · exact h

/-- What admits a buffer is refused for its length, or is refused by what follows. -/
theorem admitBuffer_refused (h : admitBuffer s n k = .refused r) :
    (r = .oversize ∧ TooLong s n) ∨ k = .refused r := by
  unfold admitBuffer at h
  split at h
  · cases h; exact .inl ⟨rfl, tooLong_of_oversize ‹_›⟩
  · exact .inr h

theorem admitSegment_refused (h : admitSegment s n k = .refused r) :
    (r = .oversize ∧ (TooLong s n ∨ 65535 < n)) ∨ k = .refused r := by
  unfold admitSegment at h
  split at h
  · cases h; exact .inl ⟨rfl, of_oversizeSegment ‹_›⟩
  · exact .inr h

theorem admitLink_refused (h : admitLink s k = .refused r) :
    (r = .linkType ∧ s.cfg.linkType ≠ .ethernet) ∨ k = .refused r := by
  unfold admitLink at h
  split at h
  · exact .inr h
  · cases h; exact .inl ⟨rfl, by simp [*]⟩

theorem next_ne_refused {t : State} (r : Refusal) : (.next t : Result) ≠ .refused r := nofun

theorem settle_ne_refused {α : Type} (tag : α → Value) (e : Except Fault (Txn α)) (r : Refusal) :
    settle tag e ≠ .refused r := by
  cases e <;> nofun

/-- The refusal of a command whose operand is over a bound of R210. -/
def RefusedForLength (i : Instr) (s : State) (r : Refusal) : Prop :=
  r = .oversize ∧ ∃ n, operandLength i = some n ∧ (TooLong s n ∨ (sumsSegment i = true ∧ 65535 < n))

/-- A command that admits its buffer and then answers is refused for the buffer's length only. -/
theorem refusedForLength_of_admitBuffer {i : Instr} (hi : operandLength i = some n) (hk : k ≠ .refused r)
    (h : admitBuffer s n k = .refused r) : RefusedForLength i s r := by
  obtain ⟨hr, hn⟩ := (admitBuffer_refused h).resolve_right hk
  exact ⟨hr, n, hi, .inl hn⟩

/-- A command that admits its segment and then answers is refused for the segment's length only. -/
theorem refusedForLength_of_admitSegment {i : Instr} (hi : operandLength i = some n) (hsum : sumsSegment i = true)
    (hk : k ≠ .refused r) (h : admitSegment s n k = .refused r) : RefusedForLength i s r := by
  obtain ⟨hr, hn⟩ := (admitSegment_refused h).resolve_right hk
  exact ⟨hr, n, hi, hn.imp_right fun hn => ⟨hsum, hn⟩⟩

end Refused

theorem fatal_eq_false_of_refused {i : Instr} {s : State} {r : Refusal} (h : exec i s = .refused r) :
    s.fatal = false :=
  eq_false_of_ne_true fun hf => nomatch (exec_of_fatal i hf).symm.trans h

/-- Settles O16: behind the FATAL test a command is refused by the admission of its operand, RX_FRAME also by that of
the link, and by nothing that follows. -/
theorem onlyTheSpecsRefusalsHappen : Obligations.OnlyTheSpecsRefusalsHappen := by
  intro i s r h
  refine ⟨fatal_eq_false_of_refused h, ?_⟩
  cases i with
  | csum buf => exact .inr (refusedForLength_of_admitBuffer rfl (next_ne_refused r) (unlessFatal_refused h))
  | ethDec buf => exact .inr (refusedForLength_of_admitBuffer rfl (next_ne_refused r) (unlessFatal_refused h))
  | ethEnc f => exact nomatch unlessFatal_refused h
  | ip4Dec buf => exact .inr (refusedForLength_of_admitBuffer rfl (next_ne_refused r) (unlessFatal_refused h))
  | ip4Enc hd => exact nomatch unlessFatal_refused h
  | tcpDec buf => exact .inr (refusedForLength_of_admitBuffer rfl (next_ne_refused r) (unlessFatal_refused h))
  | tcpEnc seg => exact nomatch unlessFatal_refused h
  | tcpCsum src dst seg =>
    exact .inr (refusedForLength_of_admitSegment rfl rfl (next_ne_refused r) (unlessFatal_refused h))
  | tcpSeal src dst seg =>
    exact .inr (refusedForLength_of_admitSegment rfl rfl (next_ne_refused r) (unlessFatal_refused h))
  | onSyn seg rip rport => exact nomatch unlessFatal_refused h
  | onAck seg => exact absurd (unlessFatal_refused h) (settle_ne_refused _ _ _)
  | dispatch seg sip => exact absurd (unlessFatal_refused h) (settle_ne_refused _ _ _)
  | rxFrame frame =>
    obtain ⟨hr, hl⟩ | hk := admitLink_refused (unlessFatal_refused h)
    · exact .inl ⟨hr, frame, rfl, hl⟩
    · exact .inr (refusedForLength_of_admitBuffer rfl (settle_ne_refused _ _ _) hk)
  | connRead => exact nomatch unlessFatal_refused h
  | reserved code => exact nomatch unlessFatal_refused h

end Sys2Proof.Machine

/-! The system commands (48_system.md), and the words of the opcode table (30_encoding.md R300, R301). -/

namespace Sys2Proof.Machine

open Sys2Proof.Claims

/-- Settles O50: behind the FATAL test, the view of the Connection, whose state is listed at its code (R113). -/
theorem connReadReturnsTheSnapshot : Obligations.ConnReadReturnsTheSnapshot := by
  refine ⟨decode_encode .connRead rfl, fun _ hf => exec_of_fatal .connRead hf,
    fun s hf => ⟨stateCode s.conn.state, unlessFatal_of_ready hf, ?code⟩⟩
  case code => cases s.conn.state <;> rfl

/-- Settles O51: `decode_of_reserved`, and the two outcomes of the FATAL test. -/
theorem reservedReturnsIllegalCommand : Obligations.ReservedReturnsIllegalCommand := fun code =>
  ⟨fun hres operands => decode_of_reserved (c := ⟨code, operands⟩) hres,
    fun _ hf => exec_of_fatal (.reserved code) hf, fun _ hf => exec_reserved_of_ready code hf⟩

/-- Settles O3: each of the six words is decoded by evaluation. -/
theorem tableWordsDecode : Obligations.TableWordsDecode := ⟨rfl, rfl, rfl, rfl, rfl, rfl⟩

end Sys2Proof.Machine
